-- ==== Sys2Proof/Word.lean ====
section
/-! DEFINITION. The word types of huffman_tree_builder (00_scope.md R7, R9, R10) and nothing else. -/

namespace Sys2Proof

/-- A symbol, and one location of DMEM (00_scope.md R6, 20_memory.md R72). -/
abbrev Byte := BitVec 8

/-- The width of the register space's data and of a command (00_scope.md R7, REG_DATA_BITS). -/
abbrev Word := BitVec 32

/-- A byte address in the register space (00_scope.md R7, REG_ADDR_BITS; 20_memory.md R70). -/
abbrev Offset := BitVec 16

/-- A node's weight (00_scope.md R7, WEIGHT_BITS). -/
abbrev Weight := BitVec 40

/-- The stored bits of one CODE entry (00_scope.md R7, CODE_VAL_BITS). -/
abbrev CodeVal := BitVec 256

/-- An index into NODE, 0..510 (00_scope.md R7, MAX_NODES and NODE_IDX_BITS). -/
abbrev NodeIdx := Fin 511

/-- A bit string, first bit first (00_scope.md R10). -/
abbrev BitString := List Bool

end Sys2Proof
end

