-- ==== Sys2Proof/Config.lean ====
section
/-! DEFINITION. What an implementation of the block fixes (00_scope.md R7), and the free values: constants with no
body, of which nothing in Lean can prove a value. -/

namespace Sys2Proof.Config

/-- 00_scope.md R7, SYM_BITS. -/
def symBits : Nat := 8

/-- 00_scope.md R7, NSYM. -/
def nsym : Nat := 256

/-- 00_scope.md R7, MAX_NODES. -/
def maxNodes : Nat := 511

/-- 00_scope.md R7, MAX_CODE_LEN. -/
def maxCodeLen : Nat := 255

/-- 00_scope.md R7, ID_VALUE. -/
def idValue : Word := 0x48554631

/-- 10_state.md R24, the field IF_VERSION. -/
def ifVersion : Nat := 1

/-- 00_scope.md R7, EMPTY_MARKER. -/
def emptyMarker : Byte := 0x0A

/-- 00_scope.md R7: the least AW. -/
def minAW : Nat := 8

/-- 00_scope.md R7: the greatest AW. -/
def maxAW : Nat := 28

/-- DESIGN CHOICE, log 1, safe: the machine's AW less 8. 00_scope.md R7 leaves AW open with 8 ≤ AW ≤ 28, so
nothing but that range is known of it. -/
opaque awOver8 : Fin 21

/-- DESIGN CHOICE, log 2, safe: the byte that DMEM address `a` holds after power-on number `n` while nothing has written
it (20_memory.md R74, 93_implementation_defined.md U1: any value). -/
opaque powerOnByte : (n a : Nat) → Byte

/-- DESIGN CHOICE, log 6, safe: the word draw number `n` gives (40_control.md R141, `draw32()`). -/
opaque freeWord : Nat → Word

/-- DESIGN CHOICE, logs 6 and 7, safe: the byte draw number `n` gives (40_control.md R143, `draw8()`;
70_reset_and_hazards.md R341). -/
opaque freeByte : Nat → Byte

/-- DESIGN CHOICE, log 15, safe: whether the Host's text resource treats a byte at or above 0x80 as white space;
46_host_interface.md R275 leaves it open. -/
opaque highByteIsSpace : Byte → Bool

end Sys2Proof.Config
end

