-- ==== Sys2Proof/Syntax.lean ====
section
/-! DEFINITION. The commands of the block (30_encoding.md R104), the names of the register space (20_memory.md R71),
and the Host's transactions and statements (30_encoding.md R112–R114). -/

namespace Sys2Proof

/-- The eight commands, one constructor per row of the opcode map (30_encoding.md R104). A command has no operand
fields (R100): its operands are registers and tables (R103). -/
inductive Instr where
  | nop
  | count
  | build
  | gencodes
  | pack
  | unpack
  | clearFreq
  | clearCodes
  deriving DecidableEq, Repr

/-- The four words of a NODE entry (30_encoding.md R110), by their names in R113. -/
inductive NodeWord where
  | wLo
  | wHi
  | kind
  | link
  deriving DecidableEq, Repr

/-- Every word of the register space that is not reserved (20_memory.md R71, 10_state.md R46, 30_encoding.md R110). -/
inductive RegName where
  | id
  | param
  | cmd
  | status
  | irqEn
  | srcAddr
  | srcLen
  | dstAddr
  | dstCap
  | outLen
  | pad
  | payloadBits
  | errInfo
  | leafCount
  | nodeCount
  | root
  | freq (s : Byte)
  | node (k : NodeIdx) (w : NodeWord)
  | codeLen (s : Byte)
  | codeVal (s : Byte) (j : Fin 8)
  deriving DecidableEq, Repr

/-- A bus transaction of the Host (30_encoding.md R112): `W`, `R`, `WB` and `RB`. -/
inductive Transaction where
  | wrReg (offset : Offset) (data : Word)
  | rdReg (offset : Offset)
  | wrDmem (addr : Nat) (data : Byte)
  | rdDmem (addr : Nat)
  deriving DecidableEq, Repr

/-- One item of a Host program: a transaction, or the `WAIT` loop, the only control flow there is
(30_encoding.md R114). -/
inductive HostOp where
  | bus (t : Transaction)
  | wait
  deriving DecidableEq, Repr

/-- A statement of the assembler (30_encoding.md R113, R114): the base statements and the pseudo-instructions. -/
inductive HostStmt where
  | wr (r : RegName) (v : Word)
  | rd (r : RegName)
  | wrb (a : Nat) (bytes : List Byte)
  | rdb (a : Nat)
  | cmd (i : Instr)
  | wait
  | run (i : Instr)
  | setsrc (a n : Word)
  | setdst (a c : Word)
  | ack
  | loadcode (s : Byte) (c : BitString)
  | wrstr (a : Nat) (text : List Byte)
  deriving DecidableEq, Repr

end Sys2Proof
end

