-- ==== Sys2Proof/WellFormed.lean ====
section
/-! DEFINITION. Which words are legal commands (30_encoding.md R101), and which terms of the Host's syntax the bus and
the tables can hold. -/

namespace Sys2Proof

/-- A word is a legal command if its bits 31:4 are 0 and its bits 3:0 are at most 7 (30_encoding.md R101). -/
def legalWord (w : Word) : Bool :=
  w.extractLsb' 4 28 == 0 && decide ((w.extractLsb' 0 4).toNat ≤ 7)

/-- Every command is well formed: it has no field that could be out of range (30_encoding.md R100). -/
def Instr.wellFormed : Instr → Bool
  | .nop => true
  | .count => true
  | .build => true
  | .gencodes => true
  | .pack => true
  | .unpack => true
  | .clearFreq => true
  | .clearCodes => true

/-- A code is a non-empty bit string of at most 255 bits (30_encoding.md R109). -/
def codeWellFormed (c : BitString) : Bool :=
  decide (1 ≤ c.length) && decide (c.length ≤ Config.maxCodeLen)

/-- A DMEM transaction names an address below 2^AW (20_memory.md R75). -/
def Transaction.wellFormed (aw : Nat) : Transaction → Bool
  | .wrReg _ _ => true
  | .rdReg _ => true
  | .wrDmem a _ => decide (a < 2 ^ aw)
  | .rdDmem a => decide (a < 2 ^ aw)

/-- An item of a Host program is well formed if its transaction is. -/
def HostOp.wellFormed (aw : Nat) : HostOp → Bool
  | .bus t => t.wellFormed aw
  | .wait => true

/-- A statement is well formed if every byte it names lies in DMEM and every code it loads fits a CODE entry. -/
def HostStmt.wellFormed (aw : Nat) : HostStmt → Bool
  | .wr _ _ => true
  | .rd _ => true
  | .wrb a bs => decide (a + bs.length ≤ 2 ^ aw)
  | .rdb a => decide (a < 2 ^ aw)
  | .cmd i => i.wellFormed
  | .wait => true
  | .run i => i.wellFormed
  | .setsrc _ _ => true
  | .setdst _ _ => true
  | .ack => true
  | .loadcode _ c => codeWellFormed c
  | .wrstr a bs => decide (a + bs.length ≤ 2 ^ aw)

end Sys2Proof
end

