-- ==== Sys2Proof/Decode.lean ====
section
/-! DEFINITION. The decoder of command words (40_control.md R133), total on all 2^32 words and rejecting by name; the
encoder (30_encoding.md R104); and the decoder of register-space offsets (20_memory.md R70, R71) with its encoder. -/

namespace Sys2Proof

/-- Why a word is no legal command (30_encoding.md R105). -/
inductive Reject where
  /-- Some bit of RSVD, bits 31:4, is set. -/
  | reservedBits
  /-- RSVD is 0 and OP is in 0x8..0xF. -/
  | reservedOp
  deriving DecidableEq, Repr

/-- The field OP, bits 3:0 (30_encoding.md R100). -/
def opField (w : Word) : BitVec 4 := w.extractLsb' 0 4

/-- The field RSVD, bits 31:4 (30_encoding.md R100). -/
def rsvdField (w : Word) : BitVec 28 := w.extractLsb' 4 28

/-- The command of an operation code (30_encoding.md R104); none for the reserved codes 0x8..0xF. -/
def instrOfOp (op : BitVec 4) : Option Instr :=
  match op.toNat with
  | 0 => some .nop
  | 1 => some .count
  | 2 => some .build
  | 3 => some .gencodes
  | 4 => some .pack
  | 5 => some .unpack
  | 6 => some .clearFreq
  | 7 => some .clearCodes
  | _ => none

/-- The dispatch table of 40_control.md R133 as a decoder. -/
def decode (w : Word) : Except Reject Instr :=
  if rsvdField w ≠ 0 then .error .reservedBits
  else
    match instrOfOp (opField w) with
    | some i => .ok i
    | none => .error .reservedOp

/-- The word of a command (30_encoding.md R104, column `word`). -/
def encode : Instr → Word
  | .nop => 0x00000000
  | .count => 0x00000001
  | .build => 0x00000002
  | .gencodes => 0x00000003
  | .pack => 0x00000004
  | .unpack => 0x00000005
  | .clearFreq => 0x00000006
  | .clearCodes => 0x00000007

/-- What the decoder reads from an instruction of `nbits` bits numbered as the opcode table numbers them. A command is
one 32-bit word (30_encoding.md R102), so bits above `nbits` are 0 and there is no longer instruction. -/
def decodeTableWord (nbits w : Nat) : Option Instr :=
  if nbits ≤ 32 then
    match decode (BitVec.ofNat 32 (w % 2 ^ nbits)) with
    | .ok i => some i
    | .error _ => none
  else none

/-- The byte that symbol index `n` names. -/
def byteOf (n : Nat) : Byte := BitVec.ofNat 8 n

/-- The word `j` of a NODE entry (30_encoding.md R110). -/
def nodeWordOf (j : Nat) : NodeWord :=
  match j with
  | 0 => .wLo
  | 1 => .wHi
  | 2 => .kind
  | _ => .link

/-- The place of a word in its NODE entry (30_encoding.md R110). -/
def nodeWordPlace : NodeWord → Nat
  | .wLo => 0
  | .wHi => 1
  | .kind => 2
  | .link => 3

/-- The control, status, argument and result registers, by word number (20_memory.md R71). -/
def ctrlRegAt (n : Nat) : Option RegName :=
  match n with
  | 0 => some .id
  | 1 => some .param
  | 2 => some .cmd
  | 3 => some .status
  | 4 => some .irqEn
  | 5 => some .srcAddr
  | 6 => some .srcLen
  | 7 => some .dstAddr
  | 8 => some .dstCap
  | 9 => some .outLen
  | 10 => some .pad
  | 11 => some .payloadBits
  | 12 => some .errInfo
  | 13 => some .leafCount
  | 14 => some .nodeCount
  | 15 => some .root
  | _ => none

/-- The word of a CODE entry, by word number in the entry (10_state.md R46); none for its reserved words. -/
def codeRegAt (s : Byte) (j : Nat) : Option RegName :=
  if j = 0 then some (.codeLen s)
  else if j ≤ 8 then some (.codeVal s (Fin.ofNat 8 (j - 1)))
  else none

/-- The register at an offset, bits 1:0 ignored (20_memory.md R70, R71); none where the offset is reserved
(10_state.md R36). -/
def regAt (o : Offset) : Option RegName :=
  let n := o.toNat / 4
  if n < 0x40 / 4 then ctrlRegAt n
  else if n < 0x400 / 4 then none
  else if n < 0x800 / 4 then some (.freq (byteOf (n - 0x400 / 4)))
  else if n < 0x2000 / 4 then none
  else if n < 0x3FF0 / 4 then
    some (.node (Fin.ofNat 511 ((n - 0x2000 / 4) / 4)) (nodeWordOf ((n - 0x2000 / 4) % 4)))
  else if n < 0x4000 / 4 then none
  else if n < 0x8000 / 4 then codeRegAt (byteOf ((n - 0x4000 / 4) / 16)) ((n - 0x4000 / 4) % 16)
  else none

/-- The offset of a register (20_memory.md R71, 10_state.md R46, 30_encoding.md R110). -/
def regOffset : RegName → Offset
  | .id => 0x0000
  | .param => 0x0004
  | .cmd => 0x0008
  | .status => 0x000C
  | .irqEn => 0x0010
  | .srcAddr => 0x0014
  | .srcLen => 0x0018
  | .dstAddr => 0x001C
  | .dstCap => 0x0020
  | .outLen => 0x0024
  | .pad => 0x0028
  | .payloadBits => 0x002C
  | .errInfo => 0x0030
  | .leafCount => 0x0034
  | .nodeCount => 0x0038
  | .root => 0x003C
  | .freq s => BitVec.ofNat 16 (0x0400 + 4 * s.toNat)
  | .node k w => BitVec.ofNat 16 (0x2000 + 16 * k.val + 4 * nodeWordPlace w)
  | .codeLen s => BitVec.ofNat 16 (0x4000 + 64 * s.toNat)
  | .codeVal s j => BitVec.ofNat 16 (0x4000 + 64 * s.toNat + 4 + 4 * j.val)

end Sys2Proof
end

