-- ==== Sys2Proof/Machine/State.lean ====
section
/-! DEFINITION. The state of the block as plain data (10_state.md R20), the model's own fields beside it, and the state
after reset (10_state.md R55). -/

namespace Sys2Proof.Machine

/-- One Huffman node (10_state.md R42). -/
structure Node where
  w : Weight
  leaf : Bool
  sym : Byte
  left : NodeIdx
  right : NodeIdx
  deriving DecidableEq, Repr

/-- An unused NODE entry: every field 0 (10_state.md R42). -/
def Node.zero : Node := { w := 0, leaf := false, sym := 0, left := 0, right := 0 }

/-- One CODE entry (10_state.md R46). -/
structure CodeEntry where
  len : Byte
  val : CodeVal
  deriving DecidableEq, Repr

/-- An empty CODE entry. -/
def CodeEntry.zero : CodeEntry := { len := 0, val := 0 }

/-- FREQ (10_state.md R40). -/
abbrev FreqTable := Vector Word 256

/-- NODE (10_state.md R42). -/
abbrev NodeTable := Vector Node 511

/-- CODE (10_state.md R46). -/
abbrev CodeTable := Vector CodeEntry 256

/-- FREQ with every entry 0. -/
def FreqTable.zero : FreqTable := Vector.replicate 256 0

/-- NODE with every field of every entry 0. -/
def NodeTable.zero : NodeTable := Vector.replicate 511 Node.zero

/-- CODE with every entry (0, 0). -/
def CodeTable.zero : CodeTable := Vector.replicate 256 CodeEntry.zero

/-- The error codes of 60_exceptions.md R301; their numbers are `ErrCode.byte`. -/
inductive ErrCode where
  | ok
  | illegalCmd
  | bounds
  | overlap
  | noCode
  | outOverflow
  | noHeader
  | badHeader
  | tableDup
  | codeOverrun
  | trailingBits
  | internal
  deriving DecidableEq, Repr

/-- The fields of STATUS that hold state (10_state.md R26). ERR and the reserved bits hold none. -/
structure Status where
  busy : Bool
  done : Bool
  busyWr : Bool
  treeValid : Bool
  errCode : ErrCode
  deriving DecidableEq, Repr

/-- The bytes of DMEM written since power-on, by address, addresses strictly rising. An address not listed holds no
written byte; what the block reads there is `Config.powerOnByte` (20_memory.md R74, log 2). -/
abbrev Memory := List Host.Cell

/-- The canonical form of DMEM: addresses strictly rising. An unlisted address has no written byte, so no entry can
equal what an unlisted address holds. -/
abbrev Memory.wf (m : Memory) : Prop := m.Pairwise (fun x y => x.1 < y.1)

/-- Who takes the next step (40_control.md R130). -/
inductive Turn where
  | host
  | core
  | reset
  | powerOn
  deriving DecidableEq, Repr

/-- What a Host read returned (30_encoding.md R115). -/
inductive Observation where
  | reg (offset : Offset) (data : Word)
  | dmem (addr : Nat) (data : Byte)
  deriving DecidableEq, Repr

/-- The state. The first group is the block's own, exactly the list of 10_state.md R20; the second group is the
model's (INVENTORY.md, State). -/
structure State where
  cmd : Word
  pending : Word
  status : Status
  ie : Bool
  srcAddr : Word
  srcLen : Word
  dstAddr : Word
  dstCap : Word
  outLen : Word
  pad : Byte
  payloadBits : Word
  errInfo : Word
  leafCount : BitVec 9
  nodeCount : BitVec 9
  root : NodeIdx
  freq : FreqTable
  node : NodeTable
  code : CodeTable
  pq : List NodeIdx
  dmem : Memory
  /-- AW − 8 (log 1). -/
  awOver8 : Fin 21
  /-- Power-on events so far (logs 2 and 7). -/
  powerOns : Nat
  /-- Free values drawn so far (log 6). -/
  draws : Nat
  /-- The Host's program still to run (log 3). -/
  program : List HostOp
  /-- Who moves next (log 4). -/
  turns : List Turn
  /-- The results of the Host's reads, oldest first (log 5). -/
  observed : List Observation
  deriving DecidableEq, Repr

/-- Why the model stops although the block would not: both cases lie outside what a conforming block and its bus can
do. -/
inductive Fault where
  /-- Raised by GENCODES where the walk from ROOT passes 255 edges without a leaf. 43_code_table_gen.md R195 shows that
  no tree that BUILD leaves has such a path, so no state reachable from reset raises it. Safe: the model stops. -/
  | treeTooDeep
  /-- Raised by a Host step whose DMEM transaction names an address at or above 2^AW, which the port cannot express
  (20_memory.md R75). Safe: the model stops. -/
  | dmemPortAddress
  deriving DecidableEq, Repr

/-- Why an instruction has no meaning. -/
inductive Refusal where
  /-- Raised by `exec` for an instruction the model does not cover. Every instruction is covered, so nothing raises it.
  Safe: the model stops. -/
  | notModelled (mnemonic : String)
  deriving DecidableEq, Repr

/-- The block after reset (10_state.md R55, 70_reset_and_hazards.md R340, R342), DMEM as at power-on, no Host program
and no turn prescribed. -/
def State.reset : State where
  cmd := 0
  pending := 0
  status := { busy := false, done := false, busyWr := false, treeValid := false, errCode := .ok }
  ie := false
  srcAddr := 0
  srcLen := 0
  dstAddr := 0
  dstCap := 0
  outLen := 0
  pad := 0
  payloadBits := 0
  errInfo := 0
  leafCount := 0
  nodeCount := 0
  root := 0
  freq := FreqTable.zero
  node := NodeTable.zero
  code := CodeTable.zero
  pq := []
  dmem := []
  awOver8 := Config.awOver8
  powerOns := 0
  draws := 0
  program := []
  turns := []
  observed := []

end Sys2Proof.Machine
end

