-- ==== Sys2Proof/Machine/Flags.lean ====
section
/-! DEFINITION. STATUS: its word, what an issue, a completion and a Host write do to its fields, and the interrupt
output (10_state.md R26, 40_control.md R131 and R134, 60_exceptions.md R301 and R320). -/

namespace Sys2Proof.Machine

/-- The number of an error code (60_exceptions.md R301). -/
def ErrCode.byte : ErrCode → Byte
  | .ok => 0x00
  | .illegalCmd => 0x01
  | .bounds => 0x02
  | .overlap => 0x03
  | .noCode => 0x04
  | .outOverflow => 0x05
  | .noHeader => 0x06
  | .badHeader => 0x07
  | .tableDup => 0x08
  | .codeOverrun => 0x09
  | .trailingBits => 0x0A
  | .internal => 0x0B

/-- STATUS.ERR always reads (ERRCODE ≠ 0) (10_state.md R26). -/
def Status.err (st : Status) : Bool := decide (st.errCode.byte ≠ 0)

/-- A flag as a word with that flag in bit `n`. -/
def flagBit (b : Bool) (n : Nat) : Word := if b then 1#32 <<< n else 0

/-- The 32 bits STATUS reads as (10_state.md R26). -/
def Status.word (st : Status) : Word :=
  flagBit st.busy 0 ||| flagBit st.done 1 ||| flagBit st.err 2 ||| flagBit st.busyWr 3 |||
    flagBit st.treeValid 4 ||| (st.errCode.byte.setWidth 32 <<< 8)

/-- STATUS at the issue of a command (40_control.md R131). -/
def Status.issued (st : Status) : Status := { st with busy := true, done := false, errCode := .ok }

/-- STATUS at the completion of a command with code `e` (40_control.md R134). -/
def Status.completed (st : Status) (e : ErrCode) : Status :=
  { st with busy := false, done := true, errCode := e }

/-- STATUS after a Host write is dropped because BUSY = 1 (10_state.md R31). -/
def Status.dropped (st : Status) : Status := { st with busyWr := true }

/-- STATUS after the Host writes `v` to it while BUSY = 0 (10_state.md R26, 40_control.md R140). -/
def Status.writeOneToClear (st : Status) (v : Word) : Status :=
  { st with done := st.done && !v.getLsbD 1, busyWr := st.busyWr && !v.getLsbD 3 }

/-- The interrupt output (60_exceptions.md R320). -/
def State.irq (s : State) : Bool := s.status.done && s.ie

end Sys2Proof.Machine
end

