-- ==== Sys2Proof/Machine/Ops.lean ====
section
/-! DEFINITION. The named operations over DMEM, the tables and the registers, and the one operation that ends every
command, with an error or without (40_control.md R134). The block has no trap entry and no return from one
(60_exceptions.md R322, R323): `State.raise` is all that an error does. -/

namespace Sys2Proof.Machine

/-! ### DMEM -/

/-- AW (00_scope.md R7). -/
def State.aw (s : State) : Nat := Config.minAW + s.awOver8.val

/-- The byte written at `a` since power-on, if any. -/
def Memory.find (m : Memory) (a : Nat) : Option Byte :=
  match m with
  | [] => none
  | c :: m' => if c.1 = a then some c.2 else Memory.find m' a

/-- DMEM with the byte `v` stored at `a`, in canonical form. -/
def Memory.write (m : Memory) (a : Nat) (v : Byte) : Memory :=
  match m with
  | [] => [(a, v)]
  | c :: m' =>
    if a < c.1 then (a, v) :: c :: m'
    else if c.1 = a then (a, v) :: m'
    else c :: Memory.write m' a v

/-- DMEM with the bytes `vs` stored from `a` on, lowest address first. -/
def Memory.writeBytes (m : Memory) (a : Nat) (vs : List Byte) : Memory :=
  match vs with
  | [] => m
  | v :: vs' => Memory.writeBytes (m.write a v) (a + 1) vs'

/-- DMEM with `n` bytes from `a` on replaced by the free bytes of the draws from `k` on (70_reset_and_hazards.md R341). -/
def Memory.drawWindow (m : Memory) (a k n : Nat) : Memory :=
  match n with
  | 0 => m
  | n' + 1 => Memory.drawWindow (m.write a (Config.freeByte k)) (a + 1) (k + 1) n'

/-- `MemRead(a, 1)` (20_memory.md R73): the byte written last at `a`, or the free byte that power-on left there (R74). -/
def State.memRead (s : State) (a : Nat) : Byte :=
  match s.dmem.find a with
  | some v => v
  | none => Config.powerOnByte s.powerOns a

/-- `in_dmem(a, n)` (20_memory.md R89): a + n ≤ 2^AW, on unbounded integers. As 8 ≤ AW ≤ 28, a range that ends by 2^8 is
inside for every AW and one that ends past 2^28 is outside for every AW; asking those first lets the kernel answer them
without a value of AW (`inDmem_iff` in Laws/Memory.lean: the answer is a + n ≤ 2^AW). -/
def State.inDmem (s : State) (a n : Nat) : Bool :=
  if a + n ≤ 2 ^ Config.minAW then true
  else if 2 ^ Config.maxAW < a + n then false
  else decide (a + n ≤ 2 ^ s.aw)

/-- `overlap(a1, n1, a2, n2)` (20_memory.md R89). -/
def overlap (a1 n1 a2 n2 : Nat) : Bool :=
  decide (0 < n1) && decide (0 < n2) && decide (a1 < a2 + n2) && decide (a2 < a1 + n1)

/-! ### Tables -/

/-- The entry of a symbol in a table of 256 entries. -/
def entryOf {α : Type} (t : Vector α 256) (s : Byte) : α := t.get s.toFin

/-- The table with the entry of a symbol replaced. -/
def setEntry {α : Type} (t : Vector α 256) (s : Byte) (v : α) : Vector α 256 := t.set s.toNat v s.isLt

/-- NODE[k]. -/
def NodeTable.entry (t : NodeTable) (k : NodeIdx) : Node := t.get k

/-- NODE with entry k replaced. -/
def NodeTable.setEntry (t : NodeTable) (k : NodeIdx) (nd : Node) : NodeTable := t.set k.val nd k.isLt

/-! ### Registers -/

/-- R[OUT_LEN] <- 0; R[PAD] <- 0; R[PAYLOAD_BITS] <- 0, the first line of PACK and UNPACK (44_bit_packer.md R211,
45_bit_unpacker.md R241). -/
def State.clearResults (s : State) : State := { s with outLen := 0, pad := 0, payloadBits := 0 }

/-- Completion with (code, info) (40_control.md R134). PENDING keeps the word (log 11). -/
def State.raise (s : State) (e : ErrCode) (info : Word) : State :=
  { s with status := s.status.completed e, errInfo := info }

/-- `complete()`: completion with (0, 0) (00_scope.md R13). -/
def State.complete (s : State) : State := s.raise .ok 0

/-- Issue of the word `w` (40_control.md R131). -/
def State.issue (s : State) (w : Word) : State :=
  { s with cmd := w, pending := w, status := s.status.issued }

/-- A Host write dropped because BUSY = 1 (10_state.md R31, 20_memory.md R77). -/
def State.dropWrite (s : State) : State := { s with status := s.status.dropped }

/-- The Host's record with the result of one more read (30_encoding.md R115). -/
def State.observe (s : State) (o : Observation) : State := { s with observed := s.observed ++ [o] }

/-- A number as a register's value, for numbers below 2^32 (00_scope.md R9). -/
def wordOf (n : Nat) : Word := BitVec.ofNat 32 n

end Sys2Proof.Machine
end

