-- ==== Sys2Proof/Machine/Operands.lean ====
section
/-! DEFINITION. What a command reads: bit strings (00_scope.md R10, R11), codes (R14), the source bytes, and the range
checks on the argument registers (20_memory.md R89). -/

namespace Sys2Proof.Machine

/-- `msb_bits(v, n)` (00_scope.md R11). -/
def msbBits (v n : Nat) : BitString := (List.range n).map fun i => v.testBit (n - 1 - i)

/-- `bits_val(s)` (00_scope.md R11): the first bit is the most significant. -/
def bitsVal (s : BitString) : Nat := s.foldl (fun v b => 2 * v + b.toNat) 0

/-- `zeros(k)` (00_scope.md R10). -/
def zeros (k : Nat) : BitString := List.replicate k false

/-- The bit string of a byte (00_scope.md R11, 20_memory.md R80). -/
def byteBits (b : Byte) : BitString := msbBits b.toNat 8

/-- The bit string of a byte sequence (45_bit_unpacker.md R242). -/
def bytesBits (bs : List Byte) : BitString := bs.flatMap byteBits

/-- The code an entry holds, its low LEN bits of VAL, most significant first (00_scope.md R14, 10_state.md R47); the
empty string where LEN = 0, which is "no code". -/
def CodeEntry.bits (e : CodeEntry) : BitString := msbBits e.val.toNat e.len.toNat

/-- The entry that stores the code `c` (30_encoding.md R109). -/
def CodeEntry.ofBits (c : BitString) : CodeEntry :=
  { len := BitVec.ofNat 8 c.length, val := BitVec.ofNat 256 (bitsVal c) }

/-- `code(s)`, or none for "no code" (00_scope.md R14). -/
def codeOf (t : CodeTable) (s : Byte) : Option BitString :=
  if (entryOf t s).len = 0 then none else some (entryOf t s).bits

/-- The symbols that have a code, ascending, each with its code. -/
def codeList (t : CodeTable) : List (Byte × BitString) :=
  t.toList.zipIdx.filterMap fun (e, s) => if e.len = 0 then none else some (byteOf s, e.bits)

/-- The `n` DMEM bytes from `a` on, lowest address first. -/
def State.memBytes (s : State) (a n : Nat) : List Byte := (List.range n).map fun i => s.memRead (a + i)

/-- The bytes of the source range (30_encoding.md R103). -/
def State.srcBytes (s : State) : List Byte := s.memBytes s.srcAddr.toNat s.srcLen.toNat

/-- `check_src()` (20_memory.md R89). -/
def State.srcInDmem (s : State) : Bool := s.inDmem s.srcAddr.toNat s.srcLen.toNat

/-- `check_dst()` (20_memory.md R89). -/
def State.dstInDmem (s : State) : Bool := s.inDmem s.dstAddr.toNat s.dstCap.toNat

/-- Whether source and destination overlap (20_memory.md R89). -/
def State.srcDstOverlap (s : State) : Bool :=
  overlap s.srcAddr.toNat s.srcLen.toNat s.dstAddr.toNat s.dstCap.toNat

/-- The range checks of PACK and UNPACK, in their order (20_memory.md R89, 60_exceptions.md R311): the error to raise,
or none. -/
def State.rangeError (s : State) : Option (ErrCode × Word) :=
  if !s.srcInDmem then some (.bounds, 0)
  else if !s.dstInDmem then some (.bounds, 1)
  else if s.srcDstOverlap then some (.overlap, 0)
  else none

end Sys2Proof.Machine
end

