-- ==== Sys2Proof/Machine/BitPacker.lean ====
section
/-! DEFINITION. The bit packer BP: PACK (44_bit_packer.md). -/

namespace Sys2Proof.Machine

/-- Pass 1: the payload length L of the symbols, or the offset of the first symbol with no code, `i` being the offset of
the first symbol given (44_bit_packer.md R211, R217). -/
def payloadLength (t : CodeTable) (bs : List Byte) (i : Nat) : Except Nat Nat :=
  match bs with
  | [] => .ok 0
  | b :: bs' =>
    if (entryOf t b).len = 0 then .error i
    else
      match payloadLength t bs' (i + 1) with
      | .error j => .error j
      | .ok l => .ok ((entryOf t b).len.toNat + l)

/-- The encoded bit string E, the codes of the symbols in input order (44_bit_packer.md R212). -/
def payloadBitsOf (t : CodeTable) (bs : List Byte) : BitString := bs.flatMap fun b => (entryOf t b).bits

/-- extra_padding for a payload of L bits, always in 1..8 (44_bit_packer.md R213). -/
def padOf (l : Nat) : Nat := 8 - l % 8

/-- The output length m = T / 8 with T = 8 + L + pad (44_bit_packer.md R211, R214). -/
def packedLength (l : Nat) : Nat := (8 + l + padOf l) / 8

/-- The stream's bit string: header, payload, padding (44_bit_packer.md R215). -/
def streamBits (t : CodeTable) (bs : List Byte) (l : Nat) : BitString :=
  msbBits (padOf l) 8 ++ payloadBitsOf t bs ++ zeros (padOf l)

/-- The first `m` bytes of a bit string: byte j is bits_val(take(drop(B, 8·j), 8)) (44_bit_packer.md R211). -/
def bitsBytes (b : BitString) (m : Nat) : List Byte :=
  (List.range m).map fun j => BitVec.ofNat 8 (bitsVal ((b.drop (8 * j)).take 8))

/-- PACK of an empty text: the empty marker (44_bit_packer.md R216). -/
def packEmpty (s : State) : State :=
  if s.dstCap < 1 then s.raise .outOverflow 1
  else
    ({ s with
      dmem := s.dmem.write s.dstAddr.toNat Config.emptyMarker
      outLen := 1 } : State).complete

/-- The state with the packed stream of a text whose payload has L bits in DMEM, and the result registers set
(44_bit_packer.md R211, R219). -/
def State.putStream (s : State) (bs : List Byte) (l : Nat) : State :=
  { s with
    dmem := s.dmem.writeBytes s.dstAddr.toNat (bitsBytes (streamBits s.code bs l) (packedLength l))
    outLen := wordOf (packedLength l)
    pad := byteOf (padOf l)
    payloadBits := wordOf l }

/-- PACK of a non-empty text (44_bit_packer.md R211). E_INTERNAL is never raised (R220, log 10). -/
def packText (s : State) (bs : List Byte) : State :=
  match payloadLength s.code bs 0 with
  | .error i => s.raise .noCode (wordOf i)
  | .ok l =>
    if (8 + l + padOf l) % 8 ≠ 0 then s.raise .internal 0
    else if s.dstCap.toNat < packedLength l then
      s.raise .outOverflow (wordOf (min (packedLength l) 0xFFFFFFFF))
    else (s.putStream bs l).complete

/-- PACK after its first line (44_bit_packer.md R211): the range checks, then the text. -/
def packCleared (s : State) : State :=
  match s.rangeError with
  | some (e, info) => s.raise e info
  | none => if s.srcLen = 0 then packEmpty s else packText s s.srcBytes

/-- PACK (44_bit_packer.md R211). -/
def execPack (s : State) : Host.Outcome State Fault Refusal := .next (packCleared s.clearResults)

end Sys2Proof.Machine
end

