-- ==== Sys2Proof/Machine/BitUnpacker.lean ====
section
/-! DEFINITION. The bit unpacker BU: UNPACK (45_bit_unpacker.md). -/

namespace Sys2Proof.Machine

/-! ### The table as a function from code to symbol -/

/-- `first_dup()` on the codes in ascending symbol order (45_bit_unpacker.md R246): the least pair s < t with equal
codes, in lexicographic order. -/
def firstDup (codes : List (Byte × BitString)) : Option (Byte × Byte) :=
  match codes with
  | [] => none
  | (s, c) :: rest =>
    match rest.find? (fun e => e.2 == c) with
    | some e => some (s, e.1)
    | none => firstDup rest

/-- `match(c)` (45_bit_unpacker.md R247). -/
def matchCode (codes : List (Byte × BitString)) (c : BitString) : Option Byte :=
  (codes.find? (fun e => e.2 == c)).map Prod.fst

/-! ### The scan -/

/-- The scan's working values: DMEM, the candidate, the payload bit index where it began, and the bytes written so far
(45_bit_unpacker.md R241). -/
structure ScanWork where
  dmem : Memory
  cand : BitString
  start : Nat
  out : Nat
  deriving DecidableEq, Repr

/-- The scan of the payload bits from bit `q` on, with `dst` and `cap` the output window (45_bit_unpacker.md R241, R248
to R251): the working values at its end, and the error that ended it with its ERR_INFO, if one did. -/
def scan (codes : List (Byte × BitString)) (dst cap : Nat) (bits : BitString) (q : Nat) (w : ScanWork) :
    ScanWork × Option (ErrCode × Nat) :=
  match bits with
  | [] => (w, if w.cand = [] then none else some (.trailingBits, w.start))
  | b :: bits' =>
    match matchCode codes (w.cand ++ [b]) with
    | some sym =>
      if w.out = cap then (w, some (.outOverflow, w.start))
      else
        scan codes dst cap bits' (q + 1)
          { dmem := w.dmem.write (dst + w.out) sym, cand := [], start := q + 1, out := w.out + 1 }
    | none =>
      if (w.cand ++ [b]).length = Config.maxCodeLen then (w, some (.codeOverrun, w.start))
      else scan codes dst cap bits' (q + 1) { w with cand := w.cand ++ [b] }

/-! ### UNPACK -/

/-- The payload P of a stream: the bits after the header less the `h` bits of padding (45_bit_unpacker.md R244). -/
def payloadOf (bs : List Byte) (h : Nat) : BitString :=
  ((bytesBits bs).drop 8).take (8 * (bs.length - 1) - h)

/-- The state with what the scan left: DMEM and OUT_LEN, and PAD and PAYLOAD_BITS of the accepted header
(45_bit_unpacker.md R253). -/
def State.putScan (s : State) (w : ScanWork) (h l : Nat) : State :=
  { s with dmem := w.dmem, outLen := wordOf w.out, pad := byteOf h, payloadBits := wordOf l }

/-- UNPACK once the header `h` and the table are accepted (45_bit_unpacker.md R241, from L on). The source is read before
the output is written: the ranges do not overlap (70_reset_and_hazards.md R355, log 13). -/
def unpackPayload (s : State) (codes : List (Byte × BitString)) (bs : List Byte) (h : Nat) : State :=
  let r := scan codes s.dstAddr.toNat s.dstCap.toNat (payloadOf bs h) 0
    { dmem := s.dmem, cand := [], start := 0, out := 0 }
  let s' := s.putScan r.1 h (8 * (bs.length - 1) - h)
  match r.2 with
  | none => s'.complete
  | some (e, info) => s'.raise e (wordOf info)

/-- UNPACK of a stream with header byte `h` (45_bit_unpacker.md R241): the marker, the header checks, the table check. -/
def unpackStream (s : State) (bs : List Byte) (h : Byte) : State :=
  if bs.length = 1 ∧ h = Config.emptyMarker then s.complete
  else if h.toNat < 1 ∨ 8 < h.toNat then s.raise .badHeader (h.setWidth 32)
  else if 8 * (bs.length - 1) < h.toNat then s.raise .badHeader (h.setWidth 32)
  else
    match firstDup (codeList s.code) with
    | some (a, b) => s.raise .tableDup (wordOf (a.toNat + 256 * b.toNat))
    | none => unpackPayload s (codeList s.code) bs h.toNat

/-- UNPACK after its first line (45_bit_unpacker.md R241): the range checks, then the stream. -/
def unpackCleared (s : State) : State :=
  match s.rangeError with
  | some (e, info) => s.raise e info
  | none =>
    match s.srcBytes with
    | [] => s.raise .noHeader 0
    | h :: bs => unpackStream s (h :: bs) h

/-- UNPACK (45_bit_unpacker.md R241). -/
def execUnpack (s : State) : Host.Outcome State Fault Refusal := .next (unpackCleared s.clearResults)

end Sys2Proof.Machine
end

