-- ==== Sys2Proof/Machine/CodeTableGen.lean ====
section
/-! DEFINITION. The code table generator CG: GENCODES and CLEAR_CODES (43_code_table_gen.md). -/

namespace Sys2Proof.Machine

/-- The walk from NODE[k], whose path from the root is `p`: at a leaf, CODE gets the path; at an internal node, the left
subtree with bit 0 and then the right one with bit 1 (43_code_table_gen.md R191, R193). This visits the nodes in the
order of the explicit work list of R191. `fuel` bounds the edges still to take; the answer is none where the walk would
take more (log 9). -/
def walk (t : NodeTable) (fuel : Nat) (k : NodeIdx) (p : BitString) (codes : CodeTable) : Option CodeTable :=
  match fuel with
  | 0 =>
    if (t.entry k).leaf then some (setEntry codes (t.entry k).sym (CodeEntry.ofBits p)) else none
  | fuel' + 1 =>
    if (t.entry k).leaf then some (setEntry codes (t.entry k).sym (CodeEntry.ofBits p))
    else
      match walk t fuel' (t.entry k).left (p ++ [false]) codes with
      | none => none
      | some codes' => walk t fuel' (t.entry k).right (p ++ [true]) codes'

/-- The code table of a tree: a root that is a leaf gives its symbol "0" (43_code_table_gen.md R194), any other root is
walked. No code is longer than 255 bits (R195). -/
def codesOfTree (t : NodeTable) (root : NodeIdx) : Option CodeTable :=
  if (t.entry root).leaf then
    some (setEntry CodeTable.zero (t.entry root).sym (CodeEntry.ofBits [false]))
  else walk t Config.maxCodeLen root [] CodeTable.zero

/-- GENCODES (43_code_table_gen.md R191). With TREE_VALID = 0 the table is only emptied (R198). -/
def execGencodes (s : State) : Host.Outcome State Fault Refusal :=
  if s.status.treeValid then
    match codesOfTree s.node s.root with
    | some codes => .next ({ s with code := codes } : State).complete
    | none => .fault .treeTooDeep
  else .next ({ s with code := CodeTable.zero } : State).complete

/-- CLEAR_CODES (43_code_table_gen.md R192). -/
def execClearCodes (s : State) : Host.Outcome State Fault Refusal :=
  .next ({ s with code := CodeTable.zero } : State).complete

end Sys2Proof.Machine
end

