-- ==== Sys2Proof/Machine/Control.lean ====
section
/-! DEFINITION. The control unit's commands: NOP, and the exec of an illegal word (40_control.md R136, R137). -/

namespace Sys2Proof.Machine

/-- NOP (40_control.md R137). -/
def execNop (s : State) : Host.Outcome State Fault Refusal := .next s.complete

/-- ILLEGAL, the exec of an illegal word, which PENDING holds (40_control.md R136). -/
def execIllegal (s : State) : Host.Outcome State Fault Refusal := .next (s.raise .illegalCmd s.pending)

end Sys2Proof.Machine
end

