-- ==== Sys2Proof/Machine/FrequencyCounter.lean ====
section
/-! DEFINITION. The frequency counter FC: COUNT and CLEAR_FREQ (41_frequency_counter.md). -/

namespace Sys2Proof.Machine

/-- A count with one more occurrence of the symbol `b`: `F[b] <- F[b] + 1`. -/
def bumpCount (f : Vector Nat 256) (b : Byte) : Vector Nat 256 := setEntry f b (entryOf f b + 1)

/-- The counts of a byte sequence, on unbounded integers, from a fresh map (41_frequency_counter.md R151). -/
def countBytes (bs : List Byte) : Vector Nat 256 := bs.foldl bumpCount (Vector.replicate 256 0)

/-- FREQ from the counts: `FREQ[s] <- F[s]`. -/
def freqOfCounts (f : Vector Nat 256) : FreqTable := f.map wordOf

/-- COUNT (41_frequency_counter.md R151). -/
def execCount (s : State) : Host.Outcome State Fault Refusal :=
  if !s.srcInDmem then .next (s.raise .bounds 0)
  else .next ({ s with freq := freqOfCounts (countBytes s.srcBytes) } : State).complete

/-- CLEAR_FREQ (41_frequency_counter.md R152). -/
def execClearFreq (s : State) : Host.Outcome State Fault Refusal :=
  .next ({ s with freq := FreqTable.zero } : State).complete

end Sys2Proof.Machine
end

