-- ==== Sys2Proof/Machine/TreeBuilder.lean ====
section
/-! DEFINITION. The tree builder TB: leaf loader, priority queue, node merger and BUILD (42_tree_builder.md). -/

namespace Sys2Proof.Machine

/-! ### Leaf loader -/

/-- The leaf of a symbol with count `c` (42_tree_builder.md R162). -/
def leafNode (c : Word) (s : Byte) : Node :=
  { w := c.setWidth 40, leaf := true, sym := s, left := 0, right := 0 }

/-- The leaves, one per symbol with a non-zero count, in ascending symbol order (42_tree_builder.md R162). -/
def leafNodes (freq : FreqTable) : List Node :=
  freq.toList.zipIdx.filterMap fun (c, s) => if c = 0 then none else some (leafNode c (byteOf s))

/-- NODE with the k-th leaf at index k and every other entry zero (42_tree_builder.md R161, R162). -/
def loadLeaves (ls : List Node) : NodeTable :=
  ls.zipIdx.foldl (fun t (nd, k) => t.setEntry (Fin.ofNat 511 k) nd) NodeTable.zero

/-! ### Priority queue -/

/-- `key(a) < key(b)` with key(k) = (NODE[k].W, k), lexicographic (42_tree_builder.md R164). -/
def keyLt (t : NodeTable) (a b : NodeIdx) : Bool :=
  decide ((t.entry a).w < (t.entry b).w) || (decide ((t.entry a).w = (t.entry b).w) && decide (a < b))

/-- The index of least key among `k` and `ks`. -/
def leastKey (t : NodeTable) (k : NodeIdx) (ks : List NodeIdx) : NodeIdx :=
  ks.foldl (fun best j => if keyLt t j best then j else best) k

/-- EXTRACT_MIN: the index of least key and the queue without it (42_tree_builder.md R165); none for the empty queue. -/
def extractMin (t : NodeTable) (pq : List NodeIdx) : Option (NodeIdx × List NodeIdx) :=
  match pq with
  | [] => none
  | k :: ks => some (leastKey t k ks, (k :: ks).erase (leastKey t k ks))

/-- INSERT: the queue is a set of indices (42_tree_builder.md R166, log 12). -/
def insertKey (pq : List NodeIdx) (k : NodeIdx) : List NodeIdx := if k ∈ pq then pq else pq ++ [k]

/-! ### Node merger -/

/-- BUILD's working values: NODE, PQ and the allocation counter `next` (42_tree_builder.md R163). -/
structure TreeWork where
  nodes : NodeTable
  pq : List NodeIdx
  next : Nat
  deriving DecidableEq, Repr

/-- The internal node over `a` and `b`, the first extracted to the left (42_tree_builder.md R168). -/
def mergedNode (t : NodeTable) (a b : NodeIdx) : Node :=
  { w := (t.entry a).w + (t.entry b).w, leaf := false, sym := 0, left := a, right := b }

/-- MERGE(a, b) (42_tree_builder.md R168), where `pq` is the queue without a and b. -/
def mergeNodes (tb : TreeWork) (pq : List NodeIdx) (a b : NodeIdx) : TreeWork :=
  { nodes := tb.nodes.setEntry (Fin.ofNat 511 tb.next) (mergedNode tb.nodes a b)
    pq := insertKey pq (Fin.ofNat 511 tb.next)
    next := tb.next + 1 }

/-- One pass of BUILD's loop: two extractions and a merge; none when fewer than two indices are queued
(42_tree_builder.md R170). -/
def mergeOnce (tb : TreeWork) : Option TreeWork :=
  match extractMin tb.nodes tb.pq with
  | none => none
  | some (a, pq1) =>
    match extractMin tb.nodes pq1 with
    | none => none
    | some (b, pq2) => some (mergeNodes tb pq2 a b)

/-- BUILD's loop, for at most `fuel` passes. Each pass makes the queue one shorter, so as many passes as there are
leaves end it. -/
def mergeAll (fuel : Nat) (tb : TreeWork) : TreeWork :=
  match fuel with
  | 0 => tb
  | fuel' + 1 =>
    match mergeOnce tb with
    | none => tb
    | some tb' => mergeAll fuel' tb'

/-! ### BUILD -/

/-- INIT (42_tree_builder.md R163): the leaves at 0..n−1, all queued, `next` = n. -/
def initTree (ls : List Node) : TreeWork :=
  { nodes := loadLeaves ls, pq := (List.range ls.length).map (Fin.ofNat 511), next := ls.length }

/-- BUILD's loop run to its end, from FREQ (42_tree_builder.md R170). -/
def buildTree (freq : FreqTable) : TreeWork :=
  mergeAll (leafNodes freq).length (initTree (leafNodes freq))

/-- The state with the results of BUILD's loop: NODE, PQ, LEAF_COUNT, NODE_COUNT, ROOT and STATUS.TREE_VALID for n
leaves (42_tree_builder.md R170). ROOT is the one element of PQ where n ≥ 1, and 0 where PQ is empty. -/
def State.setTree (s : State) (tb : TreeWork) (n : Nat) : State :=
  { s with
    node := tb.nodes
    pq := tb.pq
    leafCount := BitVec.ofNat 9 n
    nodeCount := BitVec.ofNat 9 tb.next
    root := tb.pq.head?.getD 0
    status := { s.status with treeValid := decide (1 ≤ n) } }

/-- BUILD (42_tree_builder.md R170). -/
def execBuild (s : State) : Host.Outcome State Fault Refusal :=
  .next (s.setTree (buildTree s.freq) (leafNodes s.freq).length).complete

end Sys2Proof.Machine
end

