-- ==== Sys2Proof/Machine/Dispatch.lean ====
section
/-! DEFINITION. The meaning of every command (40_control.md R133), one arm per constructor. -/

namespace Sys2Proof.Machine

-- Every arm ends its command (40_control.md R134).
def exec (i : Instr) (s : State) : Host.Outcome State Fault Refusal :=
  match i with
  | .nop => Sys2Proof.Machine.execNop s
  | .count => Sys2Proof.Machine.execCount s
  | .build => Sys2Proof.Machine.execBuild s
  | .gencodes => Sys2Proof.Machine.execGencodes s
  | .pack => Sys2Proof.Machine.execPack s
  | .unpack => Sys2Proof.Machine.execUnpack s
  | .clearFreq => Sys2Proof.Machine.execClearFreq s
  | .clearCodes => Sys2Proof.Machine.execClearCodes s

end Sys2Proof.Machine
end

