-- ==== Sys2Proof/Machine/HostPort.lean ====
section
/-! DEFINITION. The Host's transactions on the register space and on DMEM (40_control.md R140–R143), reset and power-on
(70_reset_and_hazards.md R340–R342). -/

namespace Sys2Proof.Machine

/-! ### Register reads -/

/-- Word `j` of a VAL field, least significant word first (10_state.md R46, 20_memory.md R79). -/
def valWord (v : CodeVal) (j : Fin 8) : Word := v.extractLsb' (32 * j.val) 32

/-- A VAL field with its word `j` replaced (10_state.md R46). -/
def setValWord (v : CodeVal) (j : Fin 8) (w : Word) : CodeVal :=
  (v &&& ~~~((0xFFFFFFFF#32).setWidth 256 <<< (32 * j.val))) ||| (w.setWidth 256 <<< (32 * j.val))

/-- The words of a NODE entry (30_encoding.md R110). -/
def nodeWordValue (nd : Node) (w : NodeWord) : Word :=
  match w with
  | .wLo => nd.w.extractLsb' 0 32
  | .wHi => (nd.w.extractLsb' 32 8).setWidth 32
  | .kind => flagBit nd.leaf 0 ||| (nd.sym.setWidth 32 <<< 8)
  | .link => wordOf nd.left.val ||| (wordOf nd.right.val <<< 16)

/-- PARAM (10_state.md R24). -/
def State.paramWord (s : State) : Word :=
  wordOf (Config.symBits + Config.maxCodeLen * 2 ^ 8 + s.aw * 2 ^ 16 + Config.ifVersion * 2 ^ 24)

/-- The defined value of a register's word (10_state.md R22–R36, R40, R46; 30_encoding.md R110). -/
def State.regValue (s : State) (r : RegName) : Word :=
  match r with
  | .id => Config.idValue
  | .param => s.paramWord
  | .cmd => s.cmd
  | .status => s.status.word
  | .irqEn => flagBit s.ie 0
  | .srcAddr => s.srcAddr
  | .srcLen => s.srcLen
  | .dstAddr => s.dstAddr
  | .dstCap => s.dstCap
  | .outLen => s.outLen
  | .pad => s.pad.setWidth 32
  | .payloadBits => s.payloadBits
  | .errInfo => s.errInfo
  | .leafCount => s.leafCount.setWidth 32
  | .nodeCount => s.nodeCount.setWidth 32
  | .root => wordOf s.root.val
  | .freq x => entryOf s.freq x
  | .node k w => nodeWordValue (s.node.entry k) w
  | .codeLen x => (entryOf s.code x).len.setWidth 32
  | .codeVal x j => valWord (entryOf s.code x).val j

/-- Whether a read of the word while BUSY = 1 is unspecified (20_memory.md R78). -/
def volatileReg (r : RegName) : Bool :=
  match r with
  | .id => false
  | .param => false
  | .cmd => false
  | .status => false
  | .irqEn => false
  | .srcAddr => false
  | .srcLen => false
  | .dstAddr => false
  | .dstCap => false
  | .outLen => true
  | .pad => true
  | .payloadBits => true
  | .errInfo => true
  | .leafCount => true
  | .nodeCount => true
  | .root => true
  | .freq _ => true
  | .node _ _ => true
  | .codeLen _ => true
  | .codeVal _ _ => true

/-- Whether a read at an offset is unspecified now. A reserved offset always reads 0, also inside the CODE windows
(20_memory.md R78, 10_state.md R36, log 8). -/
def State.readIsFree (s : State) (o : Offset) : Bool :=
  s.status.busy &&
    match regAt o with
    | some r => volatileReg r
    | none => false

/-- What HOST_RD_REG(o) returns (40_control.md R141). -/
def State.readReg (s : State) (o : Offset) : Word :=
  if s.readIsFree o then Config.freeWord s.draws
  else
    match regAt o with
    | some r => s.regValue r
    | none => 0

/-- HOST_RD_REG(o): the read has no effect on the block; the Host records what it returned (30_encoding.md R115), and a
free value is used up. -/
def State.hostReadReg (s : State) (o : Offset) : State :=
  { s.observe (.reg o (s.readReg o)) with draws := s.draws + (s.readIsFree o).toNat }

/-! ### Register writes -/

/-- The effect of a write of `v` to a register while BUSY = 0 (40_control.md R140). -/
def State.putReg (s : State) (r : RegName) (v : Word) : State :=
  match r with
  | .id => s
  | .param => s
  | .cmd => s.issue v
  | .status => { s with status := s.status.writeOneToClear v }
  | .irqEn => { s with ie := v.getLsbD 0 }
  | .srcAddr => { s with srcAddr := v }
  | .srcLen => { s with srcLen := v }
  | .dstAddr => { s with dstAddr := v }
  | .dstCap => { s with dstCap := v }
  | .outLen => s
  | .pad => s
  | .payloadBits => s
  | .errInfo => s
  | .leafCount => s
  | .nodeCount => s
  | .root => s
  | .freq x => { s with freq := setEntry s.freq x v }
  | .node _ _ => s
  | .codeLen x =>
    { s with code := setEntry s.code x { entryOf s.code x with len := v.extractLsb' 0 8 } }
  | .codeVal x j =>
    { s with code := setEntry s.code x { entryOf s.code x with val := setValWord (entryOf s.code x).val j v } }

/-- HOST_WR_REG(o, v) (40_control.md R140). -/
def State.hostWriteReg (s : State) (o : Offset) (v : Word) : State :=
  if s.status.busy then s.dropWrite
  else
    match regAt o with
    | some r => s.putReg r v
    | none => s

/-! ### DMEM port -/

/-- HOST_WR_DMEM(a, b) (40_control.md R142). -/
def State.hostWriteDmem (s : State) (a : Nat) (b : Byte) : State :=
  if s.status.busy then s.dropWrite else { s with dmem := s.dmem.write a b }

/-- What HOST_RD_DMEM(a) returns (40_control.md R143). -/
def State.readDmem (s : State) (a : Nat) : Byte :=
  if s.status.busy then Config.freeByte s.draws else s.memRead a

/-- HOST_RD_DMEM(a): the read has no effect on the block; the Host records what it returned, and a free value is used
up. -/
def State.hostReadDmem (s : State) (a : Nat) : State :=
  { s.observe (.dmem a (s.readDmem a)) with draws := s.draws + s.status.busy.toNat }

/-- One transaction of the Host (30_encoding.md R112). A DMEM address at or above 2^AW cannot be expressed on the port
(20_memory.md R75), so a program that names one stops the model (log 14). -/
def State.transact (s : State) (t : Transaction) : Host.Outcome State Fault Refusal :=
  match t with
  | .wrReg o v => .next (s.hostWriteReg o v)
  | .rdReg o => .next (s.hostReadReg o)
  | .wrDmem a b => if s.inDmem a 1 then .next (s.hostWriteDmem a b) else .fault .dmemPortAddress
  | .rdDmem a => if s.inDmem a 1 then .next (s.hostReadDmem a) else .fault .dmemPortAddress

/-- One item of the Host's program, `rest` being the items after it. A `WAIT` reads STATUS and stays where the word it
read has BUSY = 1 (30_encoding.md R114). -/
def State.hostOp (s : State) (op : HostOp) (rest : List HostOp) : Host.Outcome State Fault Refusal :=
  match op with
  | .bus t => ({ s with program := rest } : State).transact t
  | .wait =>
    if (s.readReg (regOffset .status)).getLsbD 0 then .next (s.hostReadReg (regOffset .status))
    else .next (({ s with program := rest } : State).hostReadReg (regOffset .status))

/-! ### Reset and power-on -/

/-- Whether a PACK or an UNPACK was issued and not completed (70_reset_and_hazards.md R341). -/
def State.packingPending (s : State) : Bool :=
  s.status.busy &&
    match decode s.pending with
    | .ok .pack => true
    | .ok .unpack => true
    | .ok _ => false
    | .error _ => false

/-- The number of bytes of the destination window that lie in DMEM. -/
def State.dstWindow (s : State) : Nat := min s.dstCap.toNat (2 ^ s.aw - s.dstAddr.toNat)

/-- Reset (70_reset_and_hazards.md R340, R341): every piece of the block's state but DMEM takes its value of
10_state.md R55; where a PACK or UNPACK was pending, its destination window is drawn. The Host and the environment keep
what is theirs (log 19), and the window is cut at the end of DMEM (log 7). -/
def State.resetBlock (s : State) : State :=
  { State.reset with
    dmem :=
      if s.packingPending then s.dmem.drawWindow s.dstAddr.toNat s.draws s.dstWindow else s.dmem
    draws := if s.packingPending then s.draws + s.dstWindow else s.draws
    awOver8 := s.awOver8
    powerOns := s.powerOns
    program := s.program
    turns := s.turns
    observed := s.observed }

/-- Power-on (70_reset_and_hazards.md R342): a reset after which every DMEM byte is unspecified. -/
def State.powerOn (s : State) : State := { s.resetBlock with dmem := [], powerOns := s.powerOns + 1 }

end Sys2Proof.Machine
end

