-- ==== Sys2Proof/Machine/Agents.lean ====
section
/-! DEFINITION. The two agents and the environment (40_control.md R130): a step of each, and who moves next. -/

namespace Sys2Proof.Machine

/-- The Core step (40_control.md R132): exec of the word in PENDING, whose legality is decided here (R133). It is
enabled exactly when BUSY = 1; a turn of the Core while BUSY = 0 changes nothing (60_exceptions.md R335). -/
def coreStep (s : State) : Host.Outcome State Fault Refusal :=
  if s.status.busy then
    match decode s.pending with
    | .ok i => exec i s
    | .error _ => execIllegal s
  else .next s

/-- The Host's step: the next item of its program. A Host whose program is over does nothing. -/
def hostStep (s : State) : Host.Outcome State Fault Refusal :=
  match s.program with
  | [] => .next s
  | op :: rest => s.hostOp op rest

/-- Who moves next and the turns after that (40_control.md R130). Where no turn is prescribed, the Core moves while
BUSY = 1 and the Host otherwise, so an enabled Core step is taken in the end (70_reset_and_hazards.md R352, log 4). -/
def nextTurn (s : State) : Turn × List Turn :=
  match s.turns with
  | [] => (if s.status.busy then .core else .host, [])
  | t :: ts => (t, ts)

/-- The step of the one whose turn it is. -/
def takeTurn (t : Turn) (s : State) : Host.Outcome State Fault Refusal :=
  match t with
  | .host => hostStep s
  | .core => coreStep s
  | .reset => .next s.resetBlock
  | .powerOn => .next s.powerOn

/-- The state with the turns that follow. -/
def State.setTurns (s : State) (ts : List Turn) : State := { s with turns := ts }

/-- `s` with the word `w` issued and the Core's turn next, so that the next step executes `w`. -/
def State.primeWord (s : State) (w : Word) : State := { s.issue w with turns := .core :: s.turns }

/-- The command word that `nbits` bits numbered as the opcode table numbers them are: bits above `nbits` are 0. -/
def tableWord (nbits w : Nat) : Word := BitVec.ofNat 32 (w % 2 ^ nbits)

end Sys2Proof.Machine
end

