-- ==== Sys2Proof/Machine/Step.lean ====
section
/-! DEFINITION. One step of the machine (40_control.md R130), untimed (log 17), and where the next command comes from. -/

namespace Sys2Proof.Machine

/-- One step: the agent whose turn it is moves (40_control.md R130). A step ends in a next state, a fault of the model
(Fault) or a refusal (Refusal). -/
def step (s : State) : Host.Outcome State Fault Refusal := takeTurn (nextTurn s).1 (s.setTurns (nextTurn s).2)

/-- `s` with the command word `w` issued, as a CMD write while BUSY = 0 leaves it (40_control.md R131), and the Core's
turn next: the step that follows executes it (log 3). -/
def State.withFetchWord (s : State) (nbits w : Nat) : State := s.primeWord (tableWord nbits w)

end Sys2Proof.Machine
end

