-- ==== Sys2Proof/Machine/HostProgram.lean ====
section
/-! DEFINITION. Host programs: the statements and pseudo-instructions expanded into transactions (30_encoding.md
R112–R115). -/

namespace Sys2Proof.Machine

/-- A register write as an item of a program. -/
def wrOp (r : RegName) (v : Word) : HostOp := .bus (.wrReg (regOffset r) v)

/-- A register read as an item of a program. -/
def rdOp (r : RegName) : HostOp := .bus (.rdReg (regOffset r))

/-- `WRB a, b0, b1, …` (30_encoding.md R113): byte i at a + i. -/
def wrbOps (a : Nat) (bs : List Byte) : List HostOp :=
  match bs with
  | [] => []
  | b :: bs' => .bus (.wrDmem a b) :: wrbOps (a + 1) bs'

/-- `LOADCODE s, "c"` (30_encoding.md R114): LEN, then VAL0 to VAL7. -/
def loadCodeOps (s : Byte) (c : BitString) : List HostOp :=
  wrOp (.codeLen s) (wordOf c.length) ::
    (List.finRange 8).map fun j => wrOp (.codeVal s j) (valWord (BitVec.ofNat 256 (bitsVal c)) j)

/-- `CMD m` (30_encoding.md R114). -/
def cmdOp (i : Instr) : HostOp := wrOp .cmd (encode i)

/-- `RUN m`: `CMD m` then `WAIT` (30_encoding.md R114). -/
def runOps (i : Instr) : List HostOp := [cmdOp i, .wait]

/-- The word `ACK` writes to STATUS: it clears DONE and BUSY_WR (30_encoding.md R114). -/
def ackWord : Word := 0x0000000A

/-- The expansion of a statement (30_encoding.md R113, R114). -/
def expandStmt (st : HostStmt) : List HostOp :=
  match st with
  | .wr r v => [wrOp r v]
  | .rd r => [rdOp r]
  | .wrb a bs => wrbOps a bs
  | .rdb a => [.bus (.rdDmem a)]
  | .cmd i => [cmdOp i]
  | .wait => [.wait]
  | .run i => runOps i
  | .setsrc a n => [wrOp .srcAddr a, wrOp .srcLen n]
  | .setdst a c => [wrOp .dstAddr a, wrOp .dstCap c]
  | .ack => [wrOp .status ackWord]
  | .loadcode s c => loadCodeOps s c
  | .wrstr a bs => wrbOps a bs

/-- A Host program from its statements (30_encoding.md R115). -/
def hostProgram (sts : List HostStmt) : List HostOp := sts.flatMap expandStmt

end Sys2Proof.Machine
end

