-- ==== Sys2Proof/Machine/Assembler.lean ====
section
/-! DEFINITION. The text of Host programs: the hexadecimal encoding of a transaction (30_encoding.md R112), and the
assembler's statements, one a line (R113, R114; numbers by 00_scope.md R9, text bytes by R16). What the spec leaves open
of the text is log 20. -/

namespace Sys2Proof.Machine

/-! ### Transactions as text -/

/-- A hexadecimal digit. -/
def hexChar (d : Nat) : Char := if d < 10 then Char.ofNat (48 + d) else Char.ofNat (55 + d)

/-- The low `n` hexadecimal digits of a number, most significant first. -/
def hexText (n v : Nat) : List Char := (List.range n).map fun i => hexChar (v / 16 ^ (n - 1 - i) % 16)

/-- A transaction's encoding (30_encoding.md R112): offsets of 4 digits, words of 8, bytes of 2, and DMEM addresses of 7,
which hold every address of 28 bits. -/
def transactionText (t : Transaction) : List Char :=
  match t with
  | .wrReg o v => 'W' :: ' ' :: hexText 4 o.toNat ++ ' ' :: hexText 8 v.toNat
  | .rdReg o => 'R' :: ' ' :: hexText 4 o.toNat
  | .wrDmem a b => 'W' :: 'B' :: ' ' :: hexText 7 a ++ ' ' :: hexText 2 b.toNat
  | .rdDmem a => 'R' :: 'B' :: ' ' :: hexText 7 a

/-! ### Tokens -/

/-- A token of a line. -/
inductive Token where
  | word (cs : List Char)
  | quoted (cs : List Char)
  | comma
  | colon
  deriving DecidableEq, Repr

/-- Why a line is no statement. -/
inductive AsmError where
  /-- A character that begins no token, or a quoted text that does not end. -/
  | badCharacter
  /-- A mnemonic that 30_encoding.md R113 and R114 do not name. -/
  | unknownMnemonic
  /-- Operands that do not fit the mnemonic. -/
  | badOperands
  deriving DecidableEq, Repr

/-- Whether a character may stand in a mnemonic, a register name, a number or a label. DESIGN CHOICE, log 25, unsafe: of a
label's name 30_encoding.md R113 says nothing but `name:`. -/
def isWordChar (c : Char) : Bool :=
  c.isAlphanum || c == '_' || c == '.' || c == '[' || c == ']'

/-- Where the reader of a line stands: between tokens, inside a word, inside a quoted text, or at an error. -/
inductive LexState where
  | between
  | inWord (cs : List Char)
  | inQuote (cs : List Char)
  | inComment
  | failed
  deriving DecidableEq, Repr

/-- The reader after one character outside a quoted text, with the tokens so far in `ts`. -/
def lexOutside (ts : List Token) (c : Char) : List Token × LexState :=
  if isWordChar c then (ts, .inWord [c])
  else if c == ',' then (ts ++ [.comma], .between)
  else if c == ':' then (ts ++ [.colon], .between)
  else if c == '"' then (ts, .inQuote [])
  else if c == ';' then (ts, .inComment)
  else if c == ' ' || c == '\t' then (ts, .between)
  else (ts, .failed)

/-- One character of a line (30_encoding.md R113: `;` starts a comment). DESIGN CHOICE, log 22, unsafe: a quoted text runs
to the next double quote, has no escapes, and holds a `;` as it holds any other character; R113 and R114 say nothing of
these. -/
def lexChar (st : List Token × LexState) (c : Char) : List Token × LexState :=
  match st.2 with
  | .between => lexOutside st.1 c
  | .inWord cs => if isWordChar c then (st.1, .inWord (cs ++ [c])) else lexOutside (st.1 ++ [.word cs]) c
  | .inQuote cs => if c == '"' then (st.1 ++ [.quoted cs], .between) else (st.1, .inQuote (cs ++ [c]))
  | .inComment => st
  | .failed => st

/-- The tokens of a line; a quoted text that does not end in its line is refused (DESIGN CHOICE, log 22). -/
def lexLine (line : List Char) : Except AsmError (List Token) :=
  match line.foldl lexChar ([], .between) with
  | (ts, .between) => .ok ts
  | (ts, .inWord cs) => .ok (ts ++ [.word cs])
  | (_, .inQuote _) => .error .badCharacter
  | (ts, .inComment) => .ok ts
  | (_, .failed) => .error .badCharacter

/-! ### Numbers and register names -/

/-- A digit of a number in a base of at most 16. -/
def digitOf (base : Nat) (c : Char) : Option Nat :=
  let d := if c.isDigit then c.toNat - 48
    else if 'A' ≤ c ∧ c ≤ 'F' then c.toNat - 55
    else if 'a' ≤ c ∧ c ≤ 'f' then c.toNat - 87
    else 16
  if d < base then some d else none

/-- The digits of a number, `acc` being the value of the digits read. -/
def digitsFrom (base acc : Nat) (cs : List Char) : Option Nat :=
  match cs with
  | [] => some acc
  | c :: cs' =>
    match digitOf base c with
    | some d => digitsFrom base (base * acc + d) cs'
    | none => none

/-- A number, in decimal or with `0x` in hexadecimal (00_scope.md R9). -/
def numberOf (cs : List Char) : Option Nat :=
  match cs with
  | [] => none
  | '0' :: 'x' :: c :: cs' => digitsFrom 16 0 (c :: cs')
  | c :: cs' => digitsFrom 10 0 (c :: cs')

/-- A number below a bound. -/
def numberBelow (bound : Nat) (cs : List Char) : Option Nat :=
  match numberOf cs with
  | some n => if n < bound then some n else none
  | none => none

/-- The parts of a table entry's name: the table, the index after the opening bracket, and what follows the index, from
the closing bracket on. -/
def splitIndex (cs : List Char) : List Char × List Char × List Char :=
  (cs.takeWhile (· ≠ '['), ((cs.dropWhile (· ≠ '[')).drop 1).takeWhile (· ≠ ']'),
    (cs.dropWhile (· ≠ '[')).dropWhile (· ≠ ']'))

/-- The registers that are no table entries, by name (20_memory.md R71). -/
def ctrlRegNames : List (List Char × RegName) :=
  [(['I','D'], .id), (['P','A','R','A','M'], .param), (['C','M','D'], .cmd), (['S','T','A','T','U','S'], .status),
    (['I','R','Q','_','E','N'], .irqEn), (['S','R','C','_','A','D','D','R'], .srcAddr),
    (['S','R','C','_','L','E','N'], .srcLen), (['D','S','T','_','A','D','D','R'], .dstAddr),
    (['D','S','T','_','C','A','P'], .dstCap), (['O','U','T','_','L','E','N'], .outLen), (['P','A','D'], .pad)] ++
  [(['P','A','Y','L','O','A','D','_','B','I','T','S'], .payloadBits), (['E','R','R','_','I','N','F','O'], .errInfo),
    (['L','E','A','F','_','C','O','U','N','T'], .leafCount), (['N','O','D','E','_','C','O','U','N','T'], .nodeCount),
    (['R','O','O','T'], .root)]

/-- The words of a NODE entry, by name (30_encoding.md R113). -/
def nodeWordNames : List (List Char × NodeWord) :=
  [(['.','W','l','o'], .wLo), (['.','W','h','i'], .wHi), (['.','K','I','N','D'], .kind), (['.','L','I','N','K'], .link)]

/-- The word of a CODE entry, by name (30_encoding.md R113). -/
def codeWordOf (s : Byte) (cs : List Char) : Option RegName :=
  match cs with
  | ['.', 'L', 'E', 'N'] => some (.codeLen s)
  | ['.', 'V', 'A', 'L', c] =>
    match digitOf 8 c with
    | some j => some (.codeVal s (Fin.ofNat 8 j))
    | none => none
  | _ => none

/-- The table entry of a name split at its brackets (30_encoding.md R113). -/
def tableEntryOf (table index rest : List Char) : Option RegName :=
  if table = ['F','R','E','Q'] ∧ rest = [] then (numberBelow 256 index).map fun n => .freq (byteOf n)
  else if table = ['C','O','D','E'] then
    match numberBelow 256 index with
    | some n => codeWordOf (byteOf n) rest
    | none => none
  else if table = ['N','O','D','E'] then
    match numberBelow 511 index, nodeWordNames.lookup rest with
    | some n, some w => some (.node (Fin.ofNat 511 n) w)
    | _, _ => none
  else none

/-- The register of a name (30_encoding.md R113). DESIGN CHOICE, log 20: a table entry's name without its closing bracket
is no name. -/
def regOfName (cs : List Char) : Option RegName :=
  match ctrlRegNames.lookup cs with
  | some r => some r
  | none =>
    match splitIndex cs with
    | (table, index, ']' :: rest) => tableEntryOf table index rest
    | _ => none

/-- The command of a mnemonic (30_encoding.md R104). -/
def instrOfName (cs : List Char) : Option Instr :=
  [(['N','O','P'], Instr.nop), (['C','O','U','N','T'], .count), (['B','U','I','L','D'], .build),
    (['G','E','N','C','O','D','E','S'], .gencodes), (['P','A','C','K'], .pack), (['U','N','P','A','C','K'], .unpack),
    (['C','L','E','A','R','_','F','R','E','Q'], .clearFreq),
    (['C','L','E','A','R','_','C','O','D','E','S'], .clearCodes)].lookup cs

/-! ### Statements -/

/-- An operand that is a word value. -/
def wordOperand (t : Token) : Option Word :=
  match t with
  | .word cs => (numberBelow (2 ^ 32) cs).map wordOf
  | _ => none

/-- An operand that is a DMEM address of at most 28 bits. -/
def addrOperand (t : Token) : Option Nat :=
  match t with
  | .word cs => numberBelow (2 ^ Config.maxAW) cs
  | _ => none

/-- An operand that is a byte. -/
def byteOperand (t : Token) : Option Byte :=
  match t with
  | .word cs => (numberBelow 256 cs).map byteOf
  | _ => none

/-- An operand that is a register, by its name. DESIGN CHOICE, log 23, unsafe: 30_encoding.md R113 says that registers may
be named and leaves open whether a number may stand there as an offset; a number is refused. -/
def regOperand (t : Token) : Option RegName :=
  match t with
  | .word cs => regOfName cs
  | _ => none

/-- An operand that is a command. -/
def instrOperand (t : Token) : Option Instr :=
  match t with
  | .word cs => instrOfName cs
  | _ => none

/-- An operand that is a text: one byte per character (30_encoding.md R114), its ASCII code (00_scope.md R16). PRESUMED,
log 21, unsafe: R16 gives no byte for a character that is not ASCII; one of code point 0x80 to 0xFF is read as the byte of
its code point, and a text with a character of a greater code point is refused. -/
def textOperand (t : Token) : Option (List Byte) :=
  match t with
  | .quoted cs => if cs.all fun c => c.toNat < 256 then some (cs.map fun c => byteOf c.toNat) else none
  | _ => none

/-- An operand that is a code string (30_encoding.md R114). -/
def codeOperand (t : Token) : Option BitString :=
  match textOperand t with
  | some bs => readBitChars bs
  | none => none
where
  /-- The bits of a text of the characters '0' and '1'. -/
  readBitChars (bs : List Byte) : Option BitString :=
    if bs.all fun b => b == 0x30 || b == 0x31 then some (bs.map fun b => b == 0x31) else none

/-- Operands separated by commas. -/
def operandsOf (ts : List Token) : Option (List Token) :=
  match ts with
  | [] => some []
  | [.comma] => none
  | [.colon] => none
  | [t] => some [t]
  | t :: .comma :: ts' =>
    match t, ts' with
    | .comma, _ => none
    | .colon, _ => none
    | _, [] => none
    | t', _ => (operandsOf ts').map (t' :: ·)
  | _ => none

/-- The operands of `WRB a, b0, b1, …`. -/
def wrbOperands (ts : List Token) : Option HostStmt :=
  match ts with
  | a :: b :: bs =>
    match addrOperand a, (b :: bs).mapM byteOperand with
    | some a', some bs' => some (.wrb a' bs')
    | _, _ => none
  | _ => none

/-- A statement with two operands, each read by its own reader. -/
def twoOperands {α β : Type} (f : Token → Option α) (g : Token → Option β) (mk : α → β → HostStmt)
    (ts : List Token) : Option HostStmt :=
  match ts with
  | [x, y] =>
    match f x, g y with
    | some a, some b => some (mk a b)
    | _, _ => none
  | _ => none

/-- A statement with one operand. -/
def oneOperand {α : Type} (f : Token → Option α) (mk : α → HostStmt) (ts : List Token) : Option HostStmt :=
  match ts with
  | [x] => (f x).map mk
  | _ => none

/-- A statement without operands. -/
def noOperand (st : HostStmt) (ts : List Token) : Option HostStmt := if ts = [] then some st else none

/-- The readers of the statements, by mnemonic (30_encoding.md R113, R114). -/
def stmtReaders : List (List Char × (List Token → Option HostStmt)) :=
  [(['W','R'], twoOperands regOperand wordOperand .wr), (['R','D'], oneOperand regOperand .rd),
    (['W','R','B'], wrbOperands), (['R','D','B'], oneOperand addrOperand .rdb),
    (['C','M','D'], oneOperand instrOperand .cmd), (['W','A','I','T'], noOperand .wait),
    (['R','U','N'], oneOperand instrOperand .run)] ++
  [(['S','E','T','S','R','C'], twoOperands wordOperand wordOperand .setsrc),
    (['S','E','T','D','S','T'], twoOperands wordOperand wordOperand .setdst), (['A','C','K'], noOperand .ack),
    (['L','O','A','D','C','O','D','E'], twoOperands byteOperand codeOperand .loadcode),
    (['W','R','S','T','R'], twoOperands addrOperand textOperand .wrstr)]

/-- The tokens after a line's label, if it has one (30_encoding.md R113). DESIGN CHOICE, log 25: any word may be a label. -/
def dropLabel (ts : List Token) : List Token :=
  match ts with
  | .word _ :: .colon :: ts' => ts'
  | _ => ts

/-- The statement of a line's tokens; none for a line that holds only a label or a comment. -/
def stmtOfTokens (ts : List Token) : Except AsmError (Option HostStmt) :=
  match dropLabel ts with
  | [] => .ok none
  | .word m :: ts' =>
    match stmtReaders.lookup m with
    | none => .error .unknownMnemonic
    | some read =>
      match operandsOf ts' with
      | none => .error .badOperands
      | some ops =>
        match read ops with
        | some st => .ok (some st)
        | none => .error .badOperands
  | _ => .error .unknownMnemonic

/-- The statement of a line. -/
def readStmt (line : List Char) : Except AsmError (Option HostStmt) :=
  match lexLine line with
  | .error e => .error e
  | .ok ts => stmtOfTokens ts

/-- The statements of a program text (30_encoding.md R115). DESIGN CHOICE, log 26, unsafe: a text with a line that is no
statement is refused whole, with the error of the first such line; the spec says nothing of it. -/
def assemble (lines : List (List Char)) : Except AsmError (List HostStmt) :=
  match lines with
  | [] => .ok []
  | l :: ls =>
    match readStmt l, assemble ls with
    | .ok (some st), .ok sts => .ok (st :: sts)
    | .ok none, .ok sts => .ok sts
    | .error e, _ => .error e
    | _, .error e => .error e

end Sys2Proof.Machine
end

