-- ==== Sys2Proof/Machine/CodeText.lean ====
section
/-! DEFINITION. The Host's persisted code table (46_host_interface.md R270–R276): its lines, how a line is read back,
and the program that loads a table. A text is a list of bytes, each symbol's character being its own byte (log 15). -/

namespace Sys2Proof.Machine

/-! ### Writing -/

/-- Newline (46_host_interface.md R272). -/
def chNewline : Byte := 0x0A

/-- Space (46_host_interface.md R272). -/
def chSpace : Byte := 0x20

/-- Backslash. -/
def chBackslash : Byte := 0x5C

/-- The letter n. -/
def chN : Byte := 0x6E

/-- The letter s. -/
def chS : Byte := 0x73

/-- The characters '0' and '1'. -/
def chBit (b : Bool) : Byte := if b then 0x31 else 0x30

/-- A symbol as the symbol field writes it: newline and space are escaped, no other symbol is (46_host_interface.md
R272). -/
def escapeSymbol (s : Byte) : List Byte :=
  if s = chNewline then [chBackslash, chN]
  else if s = chSpace then [chBackslash, chS]
  else [s]

/-- The line of one record: escaped symbol, space, code string (46_host_interface.md R271). -/
def recordLine (s : Byte) (c : BitString) : List Byte := escapeSymbol s ++ chSpace :: c.map chBit

/-- The persisted table: one line per symbol with a code, in ascending symbol order (46_host_interface.md R270, R271). -/
def persistTable (t : CodeTable) : List (List Byte) := (codeList t).map fun (s, c) => recordLine s c

/-! ### Reading -/

/-- Why a table does not load (46_host_interface.md R273). -/
inductive LoadError where
  /-- A line does not have exactly two fields. -/
  | fields
  /-- A code field is empty, longer than 255 characters, or holds a character other than '0' and '1'. -/
  | code
  /-- A symbol field is not one character and no escape. -/
  | symbol
  /-- Two lines give the same symbol. -/
  | repeated
  deriving DecidableEq, Repr

/-- White space, at which a line is split into fields: space, newline and the characters of 46_host_interface.md R275;
of a byte at or above 0x80 the spec says nothing, so it is open (log 15). -/
def isSpace (b : Byte) : Bool :=
  if 0x80 ≤ b.toNat then Config.highByteIsSpace b
  else decide (b = 0x20) || decide (0x09 ≤ b.toNat ∧ b.toNat ≤ 0x0D) || decide (0x1C ≤ b.toNat ∧ b.toNat ≤ 0x1F)

/-- The white-space separated fields of a line; `cur` holds the characters of the field being read. -/
def fieldsFrom (cur : List Byte) (line : List Byte) : List (List Byte) :=
  match line with
  | [] => if cur = [] then [] else [cur]
  | b :: line' =>
    if isSpace b then
      if cur = [] then fieldsFrom [] line' else cur :: fieldsFrom [] line'
    else fieldsFrom (cur ++ [b]) line'

/-- The fields of a line. -/
def fieldsOf (line : List Byte) : List (List Byte) := fieldsFrom [] line

/-- The symbol of a symbol field (46_host_interface.md R272): one character, or one of the two escapes. -/
def readSymbol (f : List Byte) : Option Byte :=
  match f with
  | [b] => some b
  | [x, y] =>
    if x = chBackslash ∧ y = chN then some chNewline
    else if x = chBackslash ∧ y = chS then some chSpace
    else none
  | _ => none

/-- The bit of a code character. -/
def readBit (b : Byte) : Option Bool :=
  if b = 0x30 then some false else if b = 0x31 then some true else none

/-- The bits of a run of code characters. -/
def readBits (f : List Byte) : Option BitString :=
  match f with
  | [] => some []
  | b :: f' =>
    match readBit b, readBits f' with
    | some x, some xs => some (x :: xs)
    | _, _ => none

/-- The code of a code field (46_host_interface.md R273): 1 to 255 characters, each '0' or '1'. -/
def readCode (f : List Byte) : Option BitString :=
  match readBits f with
  | some c => if codeWellFormed c then some c else none
  | none => none

/-- The record of a line, or why the line is refused (46_host_interface.md R273, log 16). -/
def readLine (line : List Byte) : Except LoadError (Byte × BitString) :=
  match fieldsOf line with
  | [f, g] =>
    match readSymbol f, readCode g with
    | some s, some c => .ok (s, c)
    | none, _ => .error .symbol
    | some _, none => .error .code
  | _ => .error .fields

/-- The records of a text, given the records read so far; any order of lines, no symbol twice (46_host_interface.md
R271, R273). -/
def readLines (seen : List (Byte × BitString)) (lines : List (List Byte)) : Except LoadError (List (Byte × BitString)) :=
  match lines with
  | [] => .ok seen
  | l :: ls =>
    match readLine l with
    | .error e => .error e
    | .ok r => if r.1 ∈ seen.map Prod.fst then .error .repeated else readLines (seen ++ [r]) ls

/-- The program that loads the records (46_host_interface.md R274, steps 1 and 2). -/
def loadOps (rs : List (Byte × BitString)) : List HostOp :=
  runOps .clearCodes ++ rs.flatMap fun r => loadCodeOps r.1 r.2

/-- The Host's program for decompression from a persisted table: load it, then UNPACK (46_host_interface.md R274). Where
the text does not load, the Host reports why and issues no UNPACK (R273). DESIGN CHOICE, log 24, unsafe: it then issues no
transaction at all, so CODE keeps what it held; R273 and R274 do not say how far the loading has come when a line fails. -/
def decompressOps (lines : List (List Byte)) : Except LoadError (List HostOp) :=
  match readLines [] lines with
  | .error e => .error e
  | .ok rs => .ok (loadOps rs ++ runOps .unpack)

end Sys2Proof.Machine
end

