-- ==== Sys2Proof/Safety.lean ====
section
/-! DEFINITION. The terms claims are stated in: the invariants of the machine (10_state.md R26, R28 to R30, R42, R44;
20_memory.md R72), what a code table may promise (43_code_table_gen.md R196), paths in a tree (R193), and a safe step. -/

namespace Sys2Proof.Safety

open Sys2Proof.Machine

/-! ### Memory -/

/-- DMEM is in its canonical form and lists no byte outside the 2^AW bytes there are (20_memory.md R72). -/
def DmemOk (s : State) : Prop := s.dmem.wf ∧ ∀ c ∈ s.dmem, c.1 < 2 ^ s.aw

/-- Every address outside the `n` bytes from `a` on reads the same before and after. -/
def SameOutside (s t : State) (a n : Nat) : Prop := ∀ x, (x < a ∨ a + n ≤ x) → t.memRead x = s.memRead x

/-! ### The tree -/

/-- The invariants (a) to (e) of 10_state.md R44 for n leaves, and that every entry past the tree is unused (R42). -/
structure TreeShape (t : NodeTable) (n : Nat) (root : NodeIdx) : Prop where
  leaves_pos : 1 ≤ n
  leaves_le : n ≤ 256
  root_eq : root.val = 2 * n - 2
  leaf : ∀ k : NodeIdx, k.val < n →
    (t.entry k).leaf = true ∧ (t.entry k).left = 0 ∧ (t.entry k).right = 0 ∧
      0 < (t.entry k).w.toNat ∧ (t.entry k).w.toNat < 2 ^ 32
  syms_ascend : ∀ j k : NodeIdx, j < k → k.val < n → (t.entry j).sym < (t.entry k).sym
  internal : ∀ k : NodeIdx, n ≤ k.val → k.val ≤ 2 * n - 2 →
    (t.entry k).leaf = false ∧ (t.entry k).sym = 0 ∧
      (t.entry k).left < k ∧ (t.entry k).right < k ∧ (t.entry k).left ≠ (t.entry k).right ∧
      (t.entry k).w.toNat = (t.entry (t.entry k).left).w.toNat + (t.entry (t.entry k).right).w.toNat
  one_parent : ∀ i : NodeIdx, i.val < 2 * n - 2 →
    ∃! k : NodeIdx, n ≤ k.val ∧ k.val ≤ 2 * n - 2 ∧ ((t.entry k).left = i ∨ (t.entry k).right = i)
  root_no_parent : ∀ k : NodeIdx, n ≤ k.val → k.val ≤ 2 * n - 2 →
    (t.entry k).left ≠ root ∧ (t.entry k).right ≠ root
  unused : ∀ k : NodeIdx, 2 * n - 1 ≤ k.val → t.entry k = Node.zero

/-- What BUILD and reset leave: a tree where TREE_VALID = 1, and nothing where it is 0 (10_state.md R26, R33 to R35, R42,
R44, R51). -/
def TreeOk (s : State) : Prop :=
  (s.status.treeValid = true → TreeShape s.node s.leafCount.toNat s.root ∧
    s.nodeCount.toNat = 2 * s.leafCount.toNat - 1 ∧ s.pq = [s.root]) ∧
  (s.status.treeValid = false → s.node = NodeTable.zero ∧ s.leafCount = 0 ∧ s.nodeCount = 0 ∧ s.root = 0 ∧ s.pq = [])

/-- `PathTo t r k p`: the edges from node `r` down to node `k` carry the bits `p` (43_code_table_gen.md R193). -/
inductive PathTo (t : NodeTable) (r : NodeIdx) : NodeIdx → BitString → Prop where
  | root : PathTo t r r []
  | left {k : NodeIdx} {p : BitString} :
      PathTo t r k p → (t.entry k).leaf = false → PathTo t r (t.entry k).left (p ++ [false])
  | right {k : NodeIdx} {p : BitString} :
      PathTo t r k p → (t.entry k).leaf = false → PathTo t r (t.entry k).right (p ++ [true])

/-- key(a) < key(b), with key(k) = (NODE[k].W, k) in lexicographic order (42_tree_builder.md R164). -/
def KeyBefore (t : NodeTable) (a b : NodeIdx) : Prop :=
  (t.entry a).w.toNat < (t.entry b).w.toNat ∨
    ((t.entry a).w.toNat = (t.entry b).w.toNat ∧ a.val < b.val)

/-- Node `i` waits in the priority queue when internal node `k` of a tree of `n` leaves is made: it is older than `k` and
no older internal node has taken it as a child (42_tree_builder.md R163, R165, R168). -/
def QueuedAt (t : NodeTable) (n : Nat) (k i : NodeIdx) : Prop :=
  i < k ∧ ∀ j : NodeIdx, n ≤ j.val → j < k → (t.entry j).left ≠ i ∧ (t.entry j).right ≠ i

/-- The symbols with a non-zero count, ascending (42_tree_builder.md R162). -/
def presentSyms (freq : FreqTable) : List Byte :=
  ((List.range 256).map byteOf).filter fun x => decide (entryOf freq x ≠ 0)

/-! ### The argument registers -/

/-- Source and destination lie in DMEM and do not overlap (20_memory.md R89). -/
def RangesOk (s : State) : Prop :=
  s.srcAddr.toNat + s.srcLen.toNat ≤ 2 ^ s.aw ∧ s.dstAddr.toNat + s.dstCap.toNat ≤ 2 ^ s.aw ∧
    ¬ (0 < s.srcLen.toNat ∧ 0 < s.dstCap.toNat ∧ s.srcAddr.toNat < s.dstAddr.toNat + s.dstCap.toNat ∧
      s.dstAddr.toNat < s.srcAddr.toNat + s.srcLen.toNat)

/-- STATUS after a completion with code `e` (40_control.md R134). -/
def doneStatus (st : Status) (e : ErrCode) : Status := { st with busy := false, done := true, errCode := e }

/-- The state after a command that only completes with code `e` and ERR_INFO `info` (40_control.md R134). -/
def ended (s : State) (e : ErrCode) (info : Word) : State :=
  { s with status := doneStatus s.status e, errInfo := info }

/-- The state after a PACK or UNPACK that completes with code `e` before any output (44_bit_packer.md R219,
45_bit_unpacker.md R253). -/
def endedEmpty (s : State) (e : ErrCode) (info : Word) : State :=
  { s with outLen := 0, pad := 0, payloadBits := 0, status := doneStatus s.status e, errInfo := info }

/-! ### The code table -/

/-- No code is a prefix of the code of another symbol; in particular no two are equal (43_code_table_gen.md R196 (b) and
(c)). -/
def PrefixFree (t : CodeTable) : Prop :=
  ∀ x y cx cy, codeOf t x = some cx → codeOf t y = some cy → x ≠ y → ¬ cx <+: cy

/-- Every symbol of a text has a code (44_bit_packer.md R217). -/
def AllCoded (t : CodeTable) (text : List Byte) : Prop := ∀ b ∈ text, (entryOf t b).len ≠ 0

/-- The payload length of a text, the sum of its code lengths (44_bit_packer.md R212). -/
def textBits (t : CodeTable) (text : List Byte) : Nat := (text.map fun b => (entryOf t b).len.toNat).sum

/-- The concatenation of the codes of a text, in order (44_bit_packer.md R212). -/
def textCode (t : CodeTable) (text : List Byte) : BitString := text.flatMap fun b => (entryOf t b).bits

/-- No two symbols have the same code (45_bit_unpacker.md R246). -/
def DistinctCodes (t : CodeTable) : Prop := ∀ x y, x ≠ y → codeOf t x = codeOf t y → codeOf t x = none

/-- No symbol's code begins a bit string. -/
def NoCodeBegins (t : CodeTable) (bits : BitString) : Prop := ∀ x c, codeOf t x = some c → ¬ c <+: bits

/-- The payload of the stream in the source range, whose header is `h`: the bits after the header less `h` bits of
padding (45_bit_unpacker.md R242, R244). -/
def srcPayload (s : State) (h : Nat) : BitString :=
  ((bytesBits s.srcBytes).drop 8).take (8 * (s.srcLen.toNat - 1) - h)

/-- Every VAL bit at a position ≥ LEN is 0 (30_encoding.md R109). -/
def ValTrimmed (e : CodeEntry) : Prop := e.val.toNat < 2 ^ e.len.toNat

/-! ### Registers -/

/-- What STATUS and the words beside it always satisfy: while BUSY = 1, DONE = 0 and ERRCODE = 0 (20_memory.md R78); CMD
reads the word in PENDING (10_state.md R50); E_INTERNAL is never reported (44_bit_packer.md R220); ERR_INFO is 0 after a
successful command (10_state.md R32). -/
def StatusOk (s : State) : Prop :=
  (s.status.busy = true → s.status.done = false ∧ s.status.errCode = .ok) ∧
  s.pending = s.cmd ∧ s.status.errCode ≠ .internal ∧
  (s.status.busy = false → s.status.errCode = .ok → s.errInfo = 0)

/-- The ranges of the result registers (10_state.md R28 to R30). -/
def ResultsOk (s : State) : Prop :=
  s.outLen.toNat ≤ 2 ^ s.aw ∧ s.pad.toNat ≤ 8 ∧ s.payloadBits.toNat < 2 ^ 31

/-- The words whose reads are defined while BUSY = 1 (20_memory.md R78). -/
def stableRegs : List RegName :=
  [.id, .param, .cmd, .status, .irqEn, .srcAddr, .srcLen, .dstAddr, .dstCap]

/-- The words a Host write never changes: RO registers and the NODE window (10_state.md R23 to R43). -/
def readOnlyReg : RegName → Prop
  | .id => True
  | .param => True
  | .cmd => False
  | .status => False
  | .irqEn => False
  | .srcAddr => False
  | .srcLen => False
  | .dstAddr => False
  | .dstCap => False
  | .outLen => True
  | .pad => True
  | .payloadBits => True
  | .errInfo => True
  | .leafCount => True
  | .nodeCount => True
  | .root => True
  | .freq _ => False
  | .node _ _ => True
  | .codeLen _ => False
  | .codeVal _ _ => False

/-! ### The persisted table -/

/-- A symbol that a line of the persisted table can carry: newline and space, which are escaped, and every byte that is
no white space (46_host_interface.md R272, R275). -/
def Persistable (x : Byte) : Prop := x = chNewline ∨ x = chSpace ∨ isSpace x = false

/-! ### Safe steps -/

/-- Every item of the Host's program can be expressed on its ports (20_memory.md R75). -/
def ProgramOk (s : State) : Prop := ∀ op ∈ s.program, op.wellFormed s.aw = true

/-- A safe step ends in a next state: neither a fault of the model nor a refusal. -/
def SafeStep (s : State) : Prop := ∃ t, step s = .next t

end Sys2Proof.Safety
end

