-- ==== Sys2Proof/Certificates/Slice0/Obligations.lean ====
section
/-! DEFINITION. The statements about the machine, for the provers. -/

open Sys2Proof Sys2Proof.Machine Sys2Proof.Safety

/-! ### Encodings -/

/-- 30_encoding.md R104: the eight words of the opcode map, and four of the illegal words of 95_test_vectors.md 2.1. -/
def Obligations.CommandWordsDecodeAsTheMapSays : Prop :=
  decode 0x00000000 = .ok .nop ∧ decode 0x00000001 = .ok .count ∧ decode 0x00000002 = .ok .build ∧
  decode 0x00000003 = .ok .gencodes ∧ decode 0x00000004 = .ok .pack ∧ decode 0x00000005 = .ok .unpack ∧
  decode 0x00000006 = .ok .clearFreq ∧ decode 0x00000007 = .ok .clearCodes ∧
  decode 0x00000008 = .error .reservedOp ∧ decode 0x0000000F = .error .reservedOp ∧
  decode 0x00000011 = .error .reservedBits ∧ decode 0x80000004 = .error .reservedBits

/-- 30_encoding.md R104, 40_control.md R133: a word decodes to a command exactly if it is that command's word, for every
command and every one of the 2^32 words. -/
def Obligations.DecodeAndEncodeAreInverse : Prop :=
  ∀ (i : Instr) (w : Word), i.wellFormed = true → (decode w = .ok i ↔ w = encode i)

/-- 30_encoding.md R101, R105: the words the decoder rejects, by the name it gives. -/
def Obligations.ReservedWordsAreRejectedByName : Prop :=
  ∀ w : Word,
    (decode w = .error .reservedBits ↔ w.toNat / 16 ≠ 0) ∧
    (decode w = .error .reservedOp ↔ w.toNat / 16 = 0 ∧ 8 ≤ w.toNat % 16)

/-- 20_memory.md R70, R71, 10_state.md R46, 30_encoding.md R110: an offset reaches a register exactly if, its bits 1:0
ignored, it is that register's offset, and the offsets are those of the map. So a reserved offset reaches none
(10_state.md R36). -/
def Obligations.RegisterMapIsOneToOne : Prop :=
  (∀ (o : Offset) (r : RegName), regAt o = some r ↔ o.toNat / 4 * 4 = (regOffset r).toNat) ∧
  ([RegName.id, .param, .cmd, .status, .irqEn, .srcAddr, .srcLen, .dstAddr, .dstCap, .outLen, .pad, .payloadBits, .errInfo,
      .leafCount, .nodeCount, .root].map regOffset =
    [0x0000, 0x0004, 0x0008, 0x000C, 0x0010, 0x0014, 0x0018, 0x001C, 0x0020, 0x0024, 0x0028, 0x002C, 0x0030, 0x0034, 0x0038,
      0x003C]) ∧
  (∀ x : Byte, (regOffset (.freq x)).toNat = 0x0400 + 4 * x.toNat) ∧
  (∀ k : NodeIdx,
    (regOffset (.node k .wLo)).toNat = 0x2000 + 16 * k.val ∧ (regOffset (.node k .wHi)).toNat = 0x2004 + 16 * k.val ∧
    (regOffset (.node k .kind)).toNat = 0x2008 + 16 * k.val ∧ (regOffset (.node k .link)).toNat = 0x200C + 16 * k.val) ∧
  (∀ x : Byte, (regOffset (.codeLen x)).toNat = 0x4000 + 64 * x.toNat) ∧
  ∀ (x : Byte) (j : Fin 8), (regOffset (.codeVal x j)).toNat = 0x4004 + 64 * x.toNat + 4 * j.val

/-- 00_scope.md R11, R14, 10_state.md R47, 20_memory.md R80: bit strings read most significant bit first. The value of a
bit string, its inverse on n bits, the bits of a byte, and the code that a CODE entry holds: its low LEN bits of VAL. -/
def Obligations.BitStringsReadMostSignificantFirst : Prop :=
  bitsVal [] = 0 ∧ (∀ (c : BitString) (b : Bool), bitsVal (c ++ [b]) = 2 * bitsVal c + b.toNat) ∧
  (∀ v n : Nat, (msbBits v n).length = n ∧ bitsVal (msbBits v n) = v % 2 ^ n) ∧
  (∀ (b : Byte) (c : BitString), byteBits b = c ↔ c.length = 8 ∧ bitsVal c = b.toNat) ∧
  (∀ bs bs' : List Byte, bytesBits (bs ++ bs') = bytesBits bs ++ bytesBits bs') ∧ (∀ b : Byte, bytesBits [b] = byteBits b) ∧
  ∀ (t : CodeTable) (x : Byte) (c : BitString), codeOf t x = some c ↔
    (entryOf t x).len ≠ 0 ∧ c.length = (entryOf t x).len.toNat ∧ bitsVal c = (entryOf t x).val.toNat % 2 ^ c.length

/-! ### Steps -/

/-- 40_control.md R132, R133: where it is the Core's turn and BUSY = 1, the step is the exec of the pending command, on the
state with that turn used up. -/
def Obligations.CoreTurnRunsThePendingCommand : Prop :=
  ∀ (s : State) (i : Instr), (nextTurn s).1 = .core → s.status.busy = true → decode s.pending = .ok i →
    step s = exec i (s.setTurns (nextTurn s).2)

/-- 40_control.md R130, 30_encoding.md R112, R114: where it is the Host's turn, the step is the next transaction of its
program. A WAIT reads STATUS: while the word read has BUSY = 1 it stays, and once it has BUSY = 0 the Host is past it. A
Host whose program is over does nothing (log 4). That the polls of a WAIT are recorded is the model's choice (log 5): R115
names the results of RD and RDB only. -/
def Obligations.HostTurnRunsTheNextTransaction : Prop :=
  ∀ (s : State) (rest : List HostOp), (nextTurn s).1 = .host →
    (∀ x : Transaction, s.program = .bus x :: rest →
      step s = State.transact { s with turns := (nextTurn s).2, program := rest } x) ∧
    (s.program = .wait :: rest → s.status.busy = true →
      step s = .next { s with
        turns := (nextTurn s).2
        observed := s.observed ++ [.reg 0x000C s.status.word] }) ∧
    (s.program = .wait :: rest → s.status.busy = false →
      step s = .next { s with
        turns := (nextTurn s).2
        program := rest
        observed := s.observed ++ [.reg 0x000C s.status.word] }) ∧
    (s.program = [] → step s = .next { s with turns := (nextTurn s).2 })

/-- 30_encoding.md R101, 40_control.md R136: an illegal word written to CMD issues, and its Core step completes with
E_ILLEGAL_CMD and the word in ERR_INFO; no other state changes. -/
def Obligations.IllegalWordCompletesWithItsError : Prop :=
  ∀ (s : State) (w : Word), s.status.busy = false →
    ¬ (w.extractLsb' 4 28 = 0 ∧ (w.extractLsb' 0 4).toNat ≤ 7) →
    (s.hostWriteReg 0x0008 w).status.busy = true ∧
    coreStep (s.hostWriteReg 0x0008 w) =
      .next { s with cmd := w, pending := w, status := doneStatus s.status .illegalCmd, errInfo := w }

/-- 60_exceptions.md R335: BUSY = 0 is the idle state, and only a CMD write leaves it (a reset keeps BUSY = 0, R340). -/
def Obligations.OnlyACmdWriteStartsTheCore : Prop :=
  ∀ s t : State, step s = .next t → s.status.busy = false → t.status.busy = true →
    ∃ (o : Offset) (w : Word) (rest : List HostOp),
      s.program = .bus (.wrReg o w) :: rest ∧ o &&& 0xFFFC = 0x0008 ∧ t.cmd = w ∧ t.pending = w

/-! ### Host transactions -/

/-- 40_control.md R131. -/
def Obligations.CmdWriteIssuesTheWord : Prop :=
  ∀ (s : State) (o : Offset) (w : Word), o &&& 0xFFFC = 0x0008 →
    (s.status.busy = false →
      s.transact (.wrReg o w) =
        .next { s with
          cmd := w
          pending := w
          status := { s.status with busy := true, done := false, errCode := .ok } }) ∧
    (s.status.busy = true → s.transact (.wrReg o w) = .next { s with status := { s.status with busyWr := true } })

/-- 10_state.md R31, 20_memory.md R77. -/
def Obligations.WritesWhileBusyAreDropped : Prop :=
  ∀ s : State, s.status.busy = true →
    (∀ (o : Offset) (v : Word),
      s.transact (.wrReg o v) = .next { s with status := { s.status with busyWr := true } }) ∧
    (∀ (a : Nat) (b : Byte), a < 2 ^ s.aw →
      s.transact (.wrDmem a b) = .next { s with status := { s.status with busyWr := true } })

/-- 10_state.md R26: what a Host write to STATUS does while BUSY = 0. -/
def Obligations.StatusWriteClearsOnlyDoneAndBusyWr : Prop :=
  ∀ (s : State) (o : Offset) (v : Word), s.status.busy = false → o &&& 0xFFFC = 0x000C →
    s.transact (.wrReg o v) =
      .next { s with
        status := { s.status with
          done := if v.getLsbD 1 then false else s.status.done
          busyWr := if v.getLsbD 3 then false else s.status.busyWr } }

/-- 10_state.md R26: the fields of the STATUS word; 60_exceptions.md R301: the number of each error code. -/
def Obligations.StatusWordHoldsItsFields : Prop :=
  (ErrCode.ok.byte = 0x00 ∧ ErrCode.illegalCmd.byte = 0x01 ∧ ErrCode.bounds.byte = 0x02 ∧ ErrCode.overlap.byte = 0x03 ∧
    ErrCode.noCode.byte = 0x04 ∧ ErrCode.outOverflow.byte = 0x05 ∧ ErrCode.noHeader.byte = 0x06 ∧
    ErrCode.badHeader.byte = 0x07 ∧ ErrCode.tableDup.byte = 0x08 ∧ ErrCode.codeOverrun.byte = 0x09 ∧
    ErrCode.trailingBits.byte = 0x0A ∧ ErrCode.internal.byte = 0x0B) ∧
  ∀ st : Status,
    st.word.getLsbD 0 = st.busy ∧ st.word.getLsbD 1 = st.done ∧
    (st.word.getLsbD 2 = true ↔ st.errCode ≠ .ok) ∧ st.word.getLsbD 3 = st.busyWr ∧
    st.word.getLsbD 4 = st.treeValid ∧ st.word.extractLsb' 5 3 = 0 ∧
    st.word.extractLsb' 8 8 = st.errCode.byte ∧ st.word.extractLsb' 16 16 = 0

/-- 40_control.md R140, 10_state.md R22, R27, R40, R46: what a writable word reads after a Host write while BUSY = 0. -/
def Obligations.WritableWordsReadBack : Prop :=
  ∀ (s : State) (v : Word), s.status.busy = false →
    (∀ r ∈ [RegName.srcAddr, .srcLen, .dstAddr, .dstCap],
      (s.hostWriteReg (regOffset r) v).readReg (regOffset r) = v) ∧
    (s.hostWriteReg (regOffset .irqEn) v).readReg (regOffset .irqEn) = v &&& 1 ∧
    (∀ x : Byte, (s.hostWriteReg (regOffset (.freq x)) v).readReg (regOffset (.freq x)) = v) ∧
    (∀ x : Byte, (s.hostWriteReg (regOffset (.codeLen x)) v).readReg (regOffset (.codeLen x)) = v &&& 0xFF) ∧
    (∀ (x : Byte) (j : Fin 8),
      (s.hostWriteReg (regOffset (.codeVal x j)) v).readReg (regOffset (.codeVal x j)) = v)

/-- 40_control.md R140: a Host write of one register other than CMD while BUSY = 0 leaves every other register's word, the
hidden state and DMEM as they were. (A CMD write also changes STATUS: CmdWriteIssuesTheWord.) -/
def Obligations.WritingOneRegisterLeavesTheOthers : Prop :=
  ∀ (s : State) (r r' : RegName) (v : Word), s.status.busy = false → r ≠ .cmd → r' ≠ r →
    (s.hostWriteReg (regOffset r) v).regValue r' = s.regValue r' ∧
    (s.hostWriteReg (regOffset r) v).pending = s.pending ∧
    (s.hostWriteReg (regOffset r) v).pq = s.pq ∧
    (s.hostWriteReg (regOffset r) v).dmem = s.dmem

/-- 10_state.md R36, R43, 40_control.md R140: a Host write to a reserved offset, a read-only register or the NODE window
while BUSY = 0 changes nothing. -/
def Obligations.ReservedAndReadOnlyWritesAreIgnored : Prop :=
  ∀ (s : State) (o : Offset) (v : Word), s.status.busy = false →
    (∀ r, regAt o = some r → readOnlyReg r) → s.transact (.wrReg o v) = .next s

/-- 20_memory.md R76, R82, 40_control.md R141, R143: a read while BUSY = 0 returns the defined word or byte, a reserved
offset 0 (10_state.md R36), and has no effect on the block. The first group is the defined word of every register: the
field it names, every other bit 0 (10_state.md R22 to R35, R40, R46; 30_encoding.md R110; 20_memory.md R79). -/
def Obligations.IdleReadsReturnTheDefinedValue : Prop :=
  (∀ s : State,
    s.regValue .id = 0x48554631 ∧ (s.regValue .param).toNat = 8 + 255 * 2 ^ 8 + s.aw * 2 ^ 16 + 1 * 2 ^ 24 ∧
    s.regValue .cmd = s.cmd ∧ s.regValue .status = s.status.word ∧ (s.regValue .irqEn).toNat = s.ie.toNat ∧
    s.regValue .srcAddr = s.srcAddr ∧ s.regValue .srcLen = s.srcLen ∧ s.regValue .dstAddr = s.dstAddr ∧
    s.regValue .dstCap = s.dstCap ∧ s.regValue .outLen = s.outLen ∧ (s.regValue .pad).toNat = s.pad.toNat ∧
    s.regValue .payloadBits = s.payloadBits ∧ s.regValue .errInfo = s.errInfo ∧
    (s.regValue .leafCount).toNat = s.leafCount.toNat ∧ (s.regValue .nodeCount).toNat = s.nodeCount.toNat ∧
    (s.regValue .root).toNat = s.root.val ∧
    (∀ x : Byte, s.regValue (.freq x) = entryOf s.freq x) ∧
    (∀ k : NodeIdx,
      (s.regValue (.node k .wLo)).toNat = (s.node.entry k).w.toNat % 2 ^ 32 ∧
      (s.regValue (.node k .wHi)).toNat = (s.node.entry k).w.toNat / 2 ^ 32 ∧
      (s.regValue (.node k .kind)).toNat = (s.node.entry k).leaf.toNat + (s.node.entry k).sym.toNat * 2 ^ 8 ∧
      (s.regValue (.node k .link)).toNat = (s.node.entry k).left.val + (s.node.entry k).right.val * 2 ^ 16) ∧
    (∀ x : Byte, (s.regValue (.codeLen x)).toNat = (entryOf s.code x).len.toNat) ∧
    ∀ (x : Byte) (j : Fin 8),
      (s.regValue (.codeVal x j)).toNat = (entryOf s.code x).val.toNat / 2 ^ (32 * j.val) % 2 ^ 32) ∧
  ∀ s : State, s.status.busy = false →
    (∀ (o : Offset) (r : RegName), regAt o = some r →
      s.transact (.rdReg o) = .next { s with observed := s.observed ++ [.reg o (s.regValue r)] }) ∧
    (∀ o : Offset, regAt o = none →
      s.transact (.rdReg o) = .next { s with observed := s.observed ++ [.reg o 0] }) ∧
    (∀ a : Nat, a < 2 ^ s.aw →
      s.transact (.rdDmem a) = .next { s with observed := s.observed ++ [.dmem a (s.memRead a)] })

/-- 20_memory.md R78: reads while BUSY = 1. Stable words and reserved offsets return their defined values; a volatile word
and a DMEM byte return the next free value, whatever it is. The third clause is 20_memory.md R78's STATUS. That a
reserved word inside the CODE windows counts as a reserved offset is the model's reading (log 8). -/
def Obligations.BusyReadsOfVolatileStateAreFree : Prop :=
  ∀ s : State, s.status.busy = true →
    (∀ (o : Offset) (r : RegName), regAt o = some r → r ∈ stableRegs →
      s.transact (.rdReg o) = .next { s with observed := s.observed ++ [.reg o (s.regValue r)] }) ∧
    (∀ o : Offset, regAt o = none →
      s.transact (.rdReg o) = .next { s with observed := s.observed ++ [.reg o 0] }) ∧
    (StatusOk s → (s.regValue .status).getLsbD 0 = true ∧ (s.regValue .status).getLsbD 1 = false ∧
      (s.regValue .status).extractLsb' 8 8 = 0) ∧
    (∀ (o : Offset) (r : RegName), regAt o = some r → r ∉ stableRegs →
      s.transact (.rdReg o) =
        .next { s with observed := s.observed ++ [.reg o (Config.freeWord s.draws)], draws := s.draws + 1 }) ∧
    (∀ a : Nat, a < 2 ^ s.aw →
      s.transact (.rdDmem a) =
        .next { s with observed := s.observed ++ [.dmem a (Config.freeByte s.draws)], draws := s.draws + 1 })

/-- 20_memory.md R76, 40_control.md R142: a Host write of DMEM while BUSY = 0 stores the byte, leaves every other byte
alone, and a later Host read returns it. The last clause is the model's choice (log 14): an address the port cannot
express (20_memory.md R75) stops the model. -/
def Obligations.DmemByteReadsBack : Prop :=
  ∀ (s : State) (a : Nat) (v : Byte),
    (s.status.busy = false → a < 2 ^ s.aw →
      ∃ t : State, s.transact (.wrDmem a v) = .next t ∧ t = { s with dmem := t.dmem } ∧
        (∀ x, t.memRead x = if x = a then v else s.memRead x) ∧
        t.transact (.rdDmem a) = .next { t with observed := t.observed ++ [.dmem a v] }) ∧
    (2 ^ s.aw ≤ a →
      s.transact (.wrDmem a v) = .fault .dmemPortAddress ∧ s.transact (.rdDmem a) = .fault .dmemPortAddress)

/-- 60_exceptions.md R320: irq is DONE and IE; it is low while a command is pending and rises at its completion while
IE = 1, falls in the three cases, and rises when IE is set while DONE = 1. -/
def Obligations.IrqFollowsDoneAndEnable : Prop :=
  (∀ s : State, s.irq = (s.status.done && s.ie)) ∧
  (∀ s : State, StatusOk s → s.status.busy = true → s.irq = false) ∧
  (∀ (i : Instr) (s t : State), exec i s = .next t → t.irq = s.ie) ∧
  (∀ (s : State), (∃ t, execIllegal s = .next t ∧ t.irq = s.ie)) ∧
  (∀ (s : State) (v : Word), s.status.busy = false → v.getLsbD 1 = true → (s.hostWriteReg 0x000C v).irq = false) ∧
  (∀ (s : State) (v : Word), s.status.busy = false → v.getLsbD 0 = false → (s.hostWriteReg 0x0010 v).irq = false) ∧
  (∀ (s : State) (w : Word), s.status.busy = false → (s.hostWriteReg 0x0008 w).irq = false) ∧
  (∀ (s : State) (v : Word), s.status.busy = false → s.status.done = true → v.getLsbD 0 = true →
    (s.hostWriteReg 0x0010 v).irq = true)

/-! ### Reset -/

/-- 10_state.md R55, 70_reset_and_hazards.md R340: the step on the reset's turn ends, whatever the state before, with
these values; where no command was pending, DMEM is unchanged. -/
def Obligations.ResetGivesEveryRegisterItsValue : Prop :=
  ∀ s : State, (nextTurn s).1 = .reset → ∃ t : State, step s = .next t ∧
    t.status.busy = false ∧
    t.regValue .id = 0x48554631 ∧
    t.regValue .param = wordOf (8 + 255 * 2 ^ 8 + s.aw * 2 ^ 16 + 1 * 2 ^ 24) ∧
    (∀ r : RegName, r ≠ .id → r ≠ .param → t.regValue r = 0) ∧
    t.pending = 0 ∧ t.pq = [] ∧ t.irq = false ∧
    (s.status.busy = false → ∀ x, t.memRead x = s.memRead x)

/-- The model's state after reset: every register as 10_state.md R55 says; that a byte of DMEM nothing has written is the
free byte of power-on number 0 is the model's form of 20_memory.md R74 (log 2), and that no Host program and no turn is
there is the model's choice (logs 3, 4). -/
def Obligations.ResetStateIsIdle : Prop :=
  (∀ r : RegName, r ≠ .id → r ≠ .param → State.reset.regValue r = 0) ∧ State.reset.pending = 0 ∧
  State.reset.irq = false ∧ (∀ x, State.reset.memRead x = Config.powerOnByte 0 x) ∧
  State.reset.program = [] ∧ State.reset.turns = [] ∧
  TreeOk State.reset ∧ DmemOk State.reset ∧ StatusOk State.reset ∧ ResultsOk State.reset ∧ ProgramOk State.reset

/-- 70_reset_and_hazards.md R341: a reset leaves DMEM alone but for the destination window of a PACK or UNPACK that was
pending, each byte of which becomes a free value of its own. That the window is cut at the end of DMEM is the model's
reading (log 7). -/
def Obligations.ResetDrawsOnlyThePendingWindow : Prop :=
  ∀ s : State, (nextTurn s).1 = .reset → ∃ t : State, step s = .next t ∧ ∀ x : Nat,
    (s.status.busy = true ∧ (s.pending = 4 ∨ s.pending = 5) ∧ s.dstAddr.toNat ≤ x ∧
        x < s.dstAddr.toNat + s.dstCap.toNat ∧ x < 2 ^ s.aw →
      t.memRead x = Config.freeByte (s.draws + (x - s.dstAddr.toNat))) ∧
    (¬ (s.status.busy = true ∧ (s.pending = 4 ∨ s.pending = 5) ∧ s.dstAddr.toNat ≤ x ∧
        x < s.dstAddr.toNat + s.dstCap.toNat ∧ x < 2 ^ s.aw) →
      t.memRead x = s.memRead x)

/-- 70_reset_and_hazards.md R342: power-on is a reset after which every DMEM byte is a free value. -/
def Obligations.PowerOnForgetsDmem : Prop :=
  ∀ s : State, (nextTurn s).1 = .powerOn → ∃ t : State, step s = .next t ∧
    (∀ x, t.memRead x = Config.powerOnByte (s.powerOns + 1) x) ∧
    (∀ r : RegName, r ≠ .id → r ≠ .param → t.regValue r = 0) ∧ t.pending = 0 ∧ t.pq = [] ∧ t.irq = false

/-! ### What every command does and leaves -/

/-- 40_control.md R134: every command ends in the completion writes, and BUSY_WR, CMD, PENDING and IE keep their
values; TREE_VALID too, but for BUILD. -/
def Obligations.EveryCommandEndsInCompletion : Prop :=
  ∀ (i : Instr) (s t : State), exec i s = .next t →
    t.status.busy = false ∧ t.status.done = true ∧ (t.status.errCode = .ok → t.errInfo = 0) ∧
    t.status.busyWr = s.status.busyWr ∧ (i ≠ .build → t.status.treeValid = s.status.treeValid) ∧
    t.cmd = s.cmd ∧ t.pending = s.pending ∧ t.ie = s.ie

/-- 30_encoding.md R103, 20_memory.md R90: the frame of the commands that write no DMEM byte. Each leaves the whole state
as it was but for what is named. -/
def Obligations.RegisterCommandsKeepTheRest : Prop :=
  ∀ s t : State,
    (exec .nop s = .next t → t = ended s t.status.errCode t.errInfo) ∧
    (exec .count s = .next t → t = { ended s t.status.errCode t.errInfo with freq := t.freq }) ∧
    (exec .clearFreq s = .next t → t = { ended s t.status.errCode t.errInfo with freq := t.freq }) ∧
    (exec .gencodes s = .next t → t = { ended s t.status.errCode t.errInfo with code := t.code }) ∧
    (exec .clearCodes s = .next t → t = { ended s t.status.errCode t.errInfo with code := t.code }) ∧
    (exec .build s = .next t → t =
      { s with
        node := t.node
        pq := t.pq
        leafCount := t.leafCount
        nodeCount := t.nodeCount
        root := t.root
        status := { doneStatus s.status t.status.errCode with treeValid := t.status.treeValid }
        errInfo := t.errInfo })

/-- 30_encoding.md R103, 20_memory.md R90: the frame of PACK and UNPACK. They write the result registers and the OUT_LEN
bytes from DST_ADDR on, within the window of DST_CAP bytes, and leave the rest of the state and every other byte of DMEM
as they were. -/
def Obligations.PackAndUnpackKeepTheRest : Prop :=
  ∀ (i : Instr) (s t : State), i = .pack ∨ i = .unpack → exec i s = .next t →
    t = { ended s t.status.errCode t.errInfo with
      outLen := t.outLen, pad := t.pad, payloadBits := t.payloadBits, dmem := t.dmem } ∧
    t.outLen.toNat ≤ s.dstCap.toNat ∧ SameOutside s t s.dstAddr.toNat t.outLen.toNat

/-- 60_exceptions.md R303: E_BOUNDS comes first, and nothing has changed but the zeroing of the result registers by PACK and
UNPACK; then E_OVERLAP (20_memory.md R89). -/
def Obligations.RangeErrorsComeFirst : Prop :=
  ∀ s : State,
    (2 ^ s.aw < s.srcAddr.toNat + s.srcLen.toNat →
      exec .count s = .next (ended s .bounds 0) ∧
      exec .pack s = .next (endedEmpty s .bounds 0) ∧ exec .unpack s = .next (endedEmpty s .bounds 0)) ∧
    (s.srcAddr.toNat + s.srcLen.toNat ≤ 2 ^ s.aw → 2 ^ s.aw < s.dstAddr.toNat + s.dstCap.toNat →
      exec .pack s = .next (endedEmpty s .bounds 1) ∧ exec .unpack s = .next (endedEmpty s .bounds 1)) ∧
    (s.srcAddr.toNat + s.srcLen.toNat ≤ 2 ^ s.aw → s.dstAddr.toNat + s.dstCap.toNat ≤ 2 ^ s.aw → ¬ RangesOk s →
      exec .pack s = .next (endedEmpty s .overlap 0) ∧ exec .unpack s = .next (endedEmpty s .overlap 0))

/-- 44_bit_packer.md R220: the packing length invariant holds for every L, and no command reports E_INTERNAL. -/
def Obligations.InternalErrorIsNeverReported : Prop :=
  (∀ l : Nat, (8 + l + (8 - l % 8)) % 8 = 0) ∧
  ∀ (i : Instr) (s t : State), exec i s = .next t → t.status.errCode ≠ .internal

/-- 40_control.md R137, 41_frequency_counter.md R152, 43_code_table_gen.md R192. -/
def Obligations.NopAndTheClearsComplete : Prop :=
  ∀ s : State,
    exec .nop s = .next (ended s .ok 0) ∧
    (∃ t, exec .clearFreq s = .next t ∧ (∀ x, entryOf t.freq x = 0) ∧
      t = { ended s .ok 0 with freq := t.freq }) ∧
    (∃ t, exec .clearCodes s = .next t ∧ (∀ x, (entryOf t.code x).len = 0 ∧ (entryOf t.code x).val = 0) ∧
      t = { ended s .ok 0 with code := t.code })

/-! ### COUNT -/

/-- 41_frequency_counter.md R151: FREQ becomes the occurrence counts of the source bytes, or E_BOUNDS is reported and
nothing else changes. -/
def Obligations.CountReplacesFreqWithOccurrences : Prop :=
  ∀ s : State,
    (s.srcAddr.toNat + s.srcLen.toNat ≤ 2 ^ s.aw →
      ∃ t, exec .count s = .next t ∧
        (∀ x : Byte, (entryOf t.freq x).toNat =
          ((List.range s.srcLen.toNat).map fun i => s.memRead (s.srcAddr.toNat + i)).count x) ∧
        t = { ended s .ok 0 with freq := t.freq }) ∧
    (2 ^ s.aw < s.srcAddr.toNat + s.srcLen.toNat → exec .count s = .next (ended s .bounds 0))

/-- 41_frequency_counter.md R153. -/
def Obligations.CountSumsToTheSourceLength : Prop :=
  ∀ s t : State, exec .count s = .next t → t.status.errCode = .ok →
    ((List.range 256).map fun n => (entryOf t.freq (byteOf n)).toNat).sum = s.srcLen.toNat ∧
    ∀ x : Byte, 0 < (entryOf t.freq x).toNat ↔ ∃ i < s.srcLen.toNat, s.memRead (s.srcAddr.toNat + i) = x

/-! ### BUILD -/

/-- 42_tree_builder.md R170, R174, R175: BUILD completes from every state; with n symbols counted, LEAF_COUNT = n,
NODE_COUNT = 2n − 1 (0 for n = 0), ROOT = 2n − 2 (0 for n ≤ 1), TREE_VALID says n ≥ 1, and NODE is all zero where n = 0. -/
def Obligations.BuildCompletesForEveryFreq : Prop :=
  ∀ s : State, ∃ t, exec .build s = .next t ∧
    t.status = { doneStatus s.status .ok with treeValid := decide (1 ≤ (presentSyms s.freq).length) } ∧
    t.errInfo = 0 ∧ t.leafCount.toNat = (presentSyms s.freq).length ∧
    t.nodeCount.toNat = 2 * (presentSyms s.freq).length - 1 ∧ t.root.val = 2 * (presentSyms s.freq).length - 2 ∧
    t.pq = (if 1 ≤ (presentSyms s.freq).length then [t.root] else []) ∧
    ((presentSyms s.freq).length = 0 → ∀ k : NodeIdx, t.node.entry k = Node.zero)

/-- 42_tree_builder.md R162: the k-th symbol with a non-zero count, in ascending order, is the leaf at index k. -/
def Obligations.BuildLoadsOneLeafPerSymbol : Prop :=
  ∀ s t : State, exec .build s = .next t → ∀ (k : Nat) (h : k < (presentSyms s.freq).length),
    t.node.entry (Fin.ofNat 511 k) =
      { w := (entryOf s.freq ((presentSyms s.freq)[k]'h)).setWidth 40
        leaf := true
        sym := (presentSyms s.freq)[k]'h
        left := 0
        right := 0 }

/-- 42_tree_builder.md R164, R165, R168: every internal node joins the two nodes of least key that are queued when it is
made, the least to the left. -/
def Obligations.BuildMergesTheTwoLeastKeys : Prop :=
  ∀ s t : State, exec .build s = .next t → ∀ k : NodeIdx,
    t.leafCount.toNat ≤ k.val → k.val < 2 * t.leafCount.toNat - 1 →
    ∃ a b : NodeIdx,
      t.node.entry k =
        { w := (t.node.entry a).w + (t.node.entry b).w, leaf := false, sym := 0, left := a, right := b } ∧
      QueuedAt t.node t.leafCount.toNat k a ∧ QueuedAt t.node t.leafCount.toNat k b ∧ KeyBefore t.node a b ∧
      ∀ i, QueuedAt t.node t.leafCount.toNat k i → i ≠ a → i ≠ b → KeyBefore t.node b i

/-! ### GENCODES -/

/-- 43_code_table_gen.md R194, R198: without a tree GENCODES only empties the table; a tree that is one leaf gives its symbol
the code "0" and no other symbol a code. -/
def Obligations.GencodesWithoutBranches : Prop :=
  ∀ s : State,
    (s.status.treeValid = false →
      ∃ t, exec .gencodes s = .next t ∧ t = { ended s .ok 0 with code := t.code } ∧
        ∀ x, entryOf t.code x = CodeEntry.zero) ∧
    (s.status.treeValid = true → (s.node.entry s.root).leaf = true →
      ∃ t, exec .gencodes s = .next t ∧ t = { ended s .ok 0 with code := t.code } ∧
        codeOf t.code (s.node.entry s.root).sym = some [false] ∧
        (entryOf t.code (s.node.entry s.root).sym).val = 0 ∧
        ∀ x, x ≠ (s.node.entry s.root).sym → entryOf t.code x = CodeEntry.zero)

/-- 43_code_table_gen.md R193: with a tree whose root is internal, GENCODES completes, every leaf has a path from the root,
its symbol's code is that path, and a symbol without a leaf has an empty entry. -/
def Obligations.GencodesGivesEveryLeafItsPath : Prop :=
  ∀ s : State, TreeOk s → s.status.treeValid = true → (s.node.entry s.root).leaf = false →
    ∃ t, exec .gencodes s = .next t ∧ t = { ended s .ok 0 with code := t.code } ∧
      (∀ k : NodeIdx, k.val < s.leafCount.toNat → ∃ p, PathTo s.node s.root k p) ∧
      (∀ (k : NodeIdx) (p : BitString), PathTo s.node s.root k p → (s.node.entry k).leaf = true →
        codeOf t.code (s.node.entry k).sym = some p) ∧
      (∀ x : Byte, (∀ k : NodeIdx, k.val < s.leafCount.toNat → (s.node.entry k).sym ≠ x) →
        entryOf t.code x = CodeEntry.zero)

/-- 43_code_table_gen.md R196: the symbols with a code are those with a leaf, and right after a BUILD those it counted;
codes are distinct and prefix-free; VAL bits at and above LEN are 0. -/
def Obligations.GencodesTableIsPrefixFree : Prop :=
  (∀ s t : State, TreeOk s → s.status.treeValid = true → exec .gencodes s = .next t →
    (∀ x : Byte, 0 < (entryOf t.code x).len.toNat ↔
      ∃ k : NodeIdx, k.val < s.leafCount.toNat ∧ (s.node.entry k).sym = x) ∧
    DistinctCodes t.code ∧ PrefixFree t.code ∧ ∀ x, ValTrimmed (entryOf t.code x)) ∧
  (∀ s b t : State, exec .build s = .next b → b.status.treeValid = true → exec .gencodes b = .next t →
    ∀ x : Byte, 0 < (entryOf t.code x).len.toNat ↔ 0 < (entryOf s.freq x).toNat)

/-! ### PACK -/

/-- 44_bit_packer.md R212 to R215, 30_encoding.md R107: PACK of a non-empty text whose symbols all have codes and whose
stream fits completes; with L the sum of the code lengths and PAD = 8 − (L mod 8), the ⌊L/8⌋ + 2 output bytes are, bit by
bit, the header, the codes in input order, and PAD zeros. -/
def Obligations.PackFramesThePayload : Prop :=
  ∀ s : State, RangesOk s → s.srcLen ≠ 0 → AllCoded s.code s.srcBytes →
    textBits s.code s.srcBytes / 8 + 2 ≤ s.dstCap.toNat →
    ∃ t, exec .pack s = .next t ∧
      t = { ended s .ok 0 with
        outLen := wordOf (textBits s.code s.srcBytes / 8 + 2)
        pad := byteOf (8 - textBits s.code s.srcBytes % 8)
        payloadBits := wordOf (textBits s.code s.srcBytes)
        dmem := t.dmem } ∧
      bytesBits (t.memBytes s.dstAddr.toNat (textBits s.code s.srcBytes / 8 + 2)) =
        msbBits (8 - textBits s.code s.srcBytes % 8) 8 ++ textCode s.code s.srcBytes ++
          zeros (8 - textBits s.code s.srcBytes % 8) ∧
      SameOutside s t s.dstAddr.toNat (textBits s.code s.srcBytes / 8 + 2)

/-- 44_bit_packer.md R216. -/
def Obligations.PackOfNothingWritesTheMarker : Prop :=
  ∀ s : State, RangesOk s → s.srcLen = 0 →
    (1 ≤ s.dstCap.toNat →
      ∃ t, exec .pack s = .next t ∧
        t = { ended s .ok 0 with outLen := 1, pad := 0, payloadBits := 0, dmem := t.dmem } ∧
        t.memRead s.dstAddr.toNat = 0x0A ∧ SameOutside s t s.dstAddr.toNat 1) ∧
    (s.dstCap = 0 → exec .pack s = .next (endedEmpty s .outOverflow 1))

/-- 44_bit_packer.md R217: the offset of the first symbol without a code is reported and nothing is written. -/
def Obligations.PackReportsTheFirstSymbolWithoutCode : Prop :=
  ∀ (s : State) (i : Nat), RangesOk s → i < s.srcLen.toNat →
    (entryOf s.code (s.memRead (s.srcAddr.toNat + i))).len = 0 →
    (∀ j < i, (entryOf s.code (s.memRead (s.srcAddr.toNat + j))).len ≠ 0) →
    exec .pack s = .next (endedEmpty s .noCode (wordOf i))

/-- 44_bit_packer.md R218: a stream that does not fit is reported with its length, and nothing is written. -/
def Obligations.PackRefusesWhatDoesNotFit : Prop :=
  ∀ s : State, RangesOk s → s.srcLen ≠ 0 → AllCoded s.code s.srcBytes →
    s.dstCap.toNat < textBits s.code s.srcBytes / 8 + 2 →
    exec .pack s = .next (endedEmpty s .outOverflow
      (wordOf (min (textBits s.code s.srcBytes / 8 + 2) (2 ^ 32 - 1))))

/-! ### UNPACK -/

/-- 45_bit_unpacker.md R245: the one-byte stream 0x0A completes with nothing written, whatever the table holds. -/
def Obligations.UnpackAcceptsTheEmptyMarker : Prop :=
  ∀ s : State, RangesOk s → s.srcLen = 1 → s.memRead s.srcAddr.toNat = 0x0A →
    exec .unpack s = .next (endedEmpty s .ok 0)

/-- 45_bit_unpacker.md R243: no header, and headers outside 1..8; R244: a header greater than the bits after it, which needs
a stream of one byte. -/
def Obligations.UnpackRefusesBadHeaders : Prop :=
  ∀ (s : State) (h : Byte), RangesOk s → h = s.memRead s.srcAddr.toNat →
    (s.srcLen = 0 → exec .unpack s = .next (endedEmpty s .noHeader 0)) ∧
    (s.srcLen ≠ 0 → ¬ (s.srcLen = 1 ∧ h = 0x0A) → ¬ (1 ≤ h.toNat ∧ h.toNat ≤ 8) →
      exec .unpack s = .next (endedEmpty s .badHeader (h.setWidth 32))) ∧
    (s.srcLen = 1 → 1 ≤ h.toNat → h.toNat ≤ 8 →
      exec .unpack s = .next (endedEmpty s .badHeader (h.setWidth 32)))

/-- 45_bit_unpacker.md R246: the least pair of symbols with equal codes is reported before any output. -/
def Obligations.UnpackRefusesDuplicateCodes : Prop :=
  ∀ (s : State) (x y : Byte), RangesOk s → 2 ≤ s.srcLen.toNat →
    1 ≤ (s.memRead s.srcAddr.toNat).toNat → (s.memRead s.srcAddr.toNat).toNat ≤ 8 →
    x < y → codeOf s.code x ≠ none → codeOf s.code x = codeOf s.code y →
    (∀ x' y' : Byte, x' < y' → codeOf s.code x' ≠ none → codeOf s.code x' = codeOf s.code y' →
      x < x' ∨ (x = x' ∧ y ≤ y')) →
    exec .unpack s = .next (endedEmpty s .tableDup (wordOf (x.toNat + 256 * y.toNat)))

/-- 45_bit_unpacker.md R242, R244, R248, R252: UNPACK of a stream that is header, codes of a text and padding of any bits
completes and writes the text, where the table is prefix-free and the text fits. -/
def Obligations.UnpackDecodesAFramedText : Prop :=
  ∀ (s : State) (text : List Byte) (tail : BitString), RangesOk s → PrefixFree s.code → AllCoded s.code text →
    1 ≤ tail.length → tail.length ≤ 8 →
    bytesBits s.srcBytes = msbBits tail.length 8 ++ textCode s.code text ++ tail →
    text.length ≤ s.dstCap.toNat →
    ∃ t, exec .unpack s = .next t ∧
      t = { ended s .ok 0 with
        outLen := wordOf text.length
        pad := byteOf tail.length
        payloadBits := wordOf (textBits s.code text)
        dmem := t.dmem } ∧
      t.memBytes s.dstAddr.toNat text.length = text ∧ SameOutside s t s.dstAddr.toNat text.length

/-- 44_bit_packer.md R221: after a successful PACK, UNPACK of its output with the same table writes back the input. -/
def Obligations.UnpackInvertsPack : Prop :=
  ∀ s t u : State, exec .pack s = .next t → t.status.errCode = .ok → PrefixFree s.code →
    u.code = t.code → u.dmem = t.dmem → u.powerOns = t.powerOns → u.awOver8 = t.awOver8 →
    u.srcAddr = t.dstAddr → u.srcLen = t.outLen → RangesOk u → s.srcLen.toNat ≤ u.dstCap.toNat →
    ∃ v, exec .unpack u = .next v ∧ v.status.errCode = .ok ∧ v.outLen = s.srcLen ∧
      v.memBytes u.dstAddr.toNat s.srcLen.toNat = s.srcBytes

/-- 45_bit_unpacker.md R248 to R251, R253, R255: with any table of distinct codes, UNPACK of a stream whose header is
accepted has written a text whose codes, each the shortest that matches, begin the payload; and what is left of the
payload decides how it ended. -/
def Obligations.UnpackWritesTheDecodedPrefix : Prop :=
  ∀ (s t : State) (h : Nat), RangesOk s → 2 ≤ s.srcLen.toNat → h = (s.memRead s.srcAddr.toNat).toNat →
    1 ≤ h → h ≤ 8 → DistinctCodes s.code → exec .unpack s = .next t →
    ∃ (text : List Byte) (rest : BitString),
      AllCoded s.code text ∧ srcPayload s h = textCode s.code text ++ rest ∧
      (∀ x ∈ text, ∀ y cy, codeOf s.code y = some cy → cy <+: (entryOf s.code x).bits → y = x) ∧
      t.outLen.toNat = text.length ∧ text.length ≤ s.dstCap.toNat ∧ t.memBytes s.dstAddr.toNat text.length = text ∧
      t.pad.toNat = h ∧ t.payloadBits.toNat = (srcPayload s h).length ∧
      (t.status.errCode = .ok ∧ rest = [] ∧ t.errInfo = 0 ∨
        t.errInfo = wordOf (textBits s.code text) ∧
          (t.status.errCode = .trailingBits ∧ rest ≠ [] ∧ rest.length < 255 ∧ NoCodeBegins s.code rest ∨
            t.status.errCode = .codeOverrun ∧ 255 ≤ rest.length ∧ NoCodeBegins s.code rest ∨
            t.status.errCode = .outOverflow ∧ text.length = s.dstCap.toNat ∧ ¬ NoCodeBegins s.code rest))

/-! ### Whole-machine rules -/

/-- 20_memory.md R72, R89: every step keeps DMEM in its canonical form and lists no byte outside DMEM. -/
def Obligations.EveryStepKeepsDmemInsideItsBounds : Prop :=
  ∀ s t : State, DmemOk s → step s = .next t → DmemOk t

/-- 10_state.md R44, R42, 42_tree_builder.md R176: every step keeps a tree of BUILD's shape in NODE while TREE_VALID = 1, and
nothing in NODE while it is 0. -/
def Obligations.EveryStepKeepsTheTreeShape : Prop :=
  ∀ s t : State, TreeOk s → step s = .next t → TreeOk t

/-- 20_memory.md R78, 10_state.md R28 to R30, R32, R50, 44_bit_packer.md R220: every step keeps the relations of STATUS, CMD,
PENDING and ERR_INFO, and OUT_LEN ≤ 2^AW, PAD ≤ 8 and PAYLOAD_BITS < 2^31. That PENDING keeps the word after completion is
the model's reading (log 11). -/
def Obligations.EveryStepKeepsTheRegisterRelations : Prop :=
  ∀ s t : State, step s = .next t → (StatusOk s → StatusOk t) ∧ (ResultsOk s → ResultsOk t)

/-- 60_exceptions.md R300, 40_control.md R135: from a state whose NODE table is as BUILD or reset left it and whose Host program
names only DMEM addresses there are, a step ends in a next state, and the Host's program stays such. -/
def Obligations.NoStepStopsTheMachine : Prop :=
  ∀ s : State, TreeOk s → ProgramOk s → SafeStep s ∧ ∀ t, step s = .next t → ProgramOk t

/-- 10_state.md R23, R24: no step changes AW, so ID and PARAM read the same for ever. -/
def Obligations.IdentityRegistersNeverChange : Prop :=
  ∀ s t : State, step s = .next t →
    t.aw = s.aw ∧ t.regValue .id = s.regValue .id ∧ t.regValue .param = s.regValue .param

/-- 42_tree_builder.md R171, 70_reset_and_hazards.md R354: NODE, LEAF_COUNT, NODE_COUNT, ROOT and TREE_VALID change only at
a BUILD and at reset or power-on. -/
def Obligations.OnlyBuildAndResetChangeTheTree : Prop :=
  ∀ s t : State, step s = .next t → (nextTurn s).1 ≠ .reset → (nextTurn s).1 ≠ .powerOn →
    ¬ ((nextTurn s).1 = .core ∧ s.status.busy = true ∧ s.pending = 2) →
    t.node = s.node ∧ t.leafCount = s.leafCount ∧ t.nodeCount = s.nodeCount ∧ t.root = s.root ∧ t.pq = s.pq ∧
      t.status.treeValid = s.status.treeValid

/-- 10_state.md R22: the commands read the argument registers and never write them, and while BUSY = 1 no Host write
changes them either (30_encoding.md R103): while a command is pending, only reset changes them. -/
def Obligations.ArgumentsStayStableWhileBusy : Prop :=
  (∀ (i : Instr) (s t : State), exec i s = .next t →
    t.srcAddr = s.srcAddr ∧ t.srcLen = s.srcLen ∧ t.dstAddr = s.dstAddr ∧ t.dstCap = s.dstCap) ∧
  (∀ s t : State, step s = .next t → s.status.busy = true →
    (nextTurn s).1 ≠ .reset → (nextTurn s).1 ≠ .powerOn →
    t.srcAddr = s.srcAddr ∧ t.srcLen = s.srcLen ∧ t.dstAddr = s.dstAddr ∧ t.dstCap = s.dstCap)

/-- 10_state.md R41, R43: of the commands, only BUILD reads FREQ, so another FREQ gives the same run of any other command,
and COUNT and CLEAR_FREQ overwrite it; only GENCODES reads NODE, and BUILD overwrites it. -/
def Obligations.TablesAreReadOnlyByTheirUnits : Prop :=
  ∀ (s t : State) (f : FreqTable) (nd : NodeTable),
    (∀ i : Instr, i ≠ .build → i ≠ .count → i ≠ .clearFreq → exec i s = .next t →
      exec i { s with freq := f } = .next { t with freq := f } ∧ t.freq = s.freq) ∧
    (exec .clearFreq { s with freq := f } = exec .clearFreq s) ∧
    (exec .count s = .next t → t.status.errCode = .ok → exec .count { s with freq := f } = .next t) ∧
    (exec .build s = .next t → t.freq = s.freq) ∧
    (∀ i : Instr, i ≠ .gencodes → i ≠ .build → exec i s = .next t →
      exec i { s with node := nd } = .next { t with node := nd } ∧ t.node = s.node) ∧
    (exec .build { s with node := nd } = exec .build s) ∧
    (exec .gencodes s = .next t → t.node = s.node)

/-- 40_control.md R135, 70_reset_and_hazards.md R352, 30_encoding.md R114: with a command pending and no turn prescribed, the
Host's WAIT ends within two steps: the Core completes, and the next STATUS read shows BUSY = 0. That the Core moves first
where no turn is prescribed, and that the poll is recorded, are the model's choices (logs 4 and 5). -/
def Obligations.WaitEndsAfterTheCoreStep : Prop :=
  ∀ (s : State) (rest : List HostOp), TreeOk s → s.status.busy = true → s.turns = [] → s.program = .wait :: rest →
    ∃ t u : State, step s = .next t ∧ t.status.busy = false ∧ t.status.done = true ∧ t.program = .wait :: rest ∧
      step t = .next u ∧ u.program = rest ∧
      u.observed = t.observed ++ [.reg 0x000C (t.regValue .status)]

/-! ### The persisted table -/

/-- 46_host_interface.md R271, R272: the line of a record, and that it reads back as the record, for every symbol a line
can carry. That a symbol's character is its own byte is the model's choice (log 15). -/
def Obligations.PersistedRecordReadsBack : Prop :=
  (∀ (x : Byte) (c : BitString), recordLine x c =
    (if x = 0x0A then [0x5C, 0x6E] else if x = 0x20 then [0x5C, 0x73] else [x]) ++ [0x20] ++
      c.map (fun b => if b then 0x31 else 0x30)) ∧
  ∀ (x : Byte) (c : BitString), Persistable x → codeWellFormed c = true → readLine (recordLine x c) = .ok (x, c)

/-- 46_host_interface.md R270, R271, R273: the lines of a table whose coded symbols a line can carry load without error,
with exactly the table's symbols and codes. -/
def Obligations.PersistedTableReloads : Prop :=
  ∀ t : CodeTable, (∀ x, (entryOf t x).len ≠ 0 → Persistable x) →
    readLines [] (persistTable t) = .ok (codeList t) ∧
    ∀ x c, (x, c) ∈ codeList t ↔ codeOf t x = some c

/-- 30_encoding.md R109, R114, 46_host_interface.md R274: the nine transactions of LOADCODE, run by an idle machine, store
exactly the code with VAL's high bits 0, and nothing else. -/
def Obligations.LoadcodeStoresTheCode : Prop :=
  ∀ (s : State) (x : Byte) (c : BitString) (rest : List HostOp), codeWellFormed c = true →
    s.status.busy = false → s.turns = [] → s.program = loadCodeOps x c ++ rest →
    ∃ t : State, Host.Core.run core 9 s = .next t ∧ t = { s with program := rest, code := t.code } ∧
      codeOf t.code x = some c ∧ ValTrimmed (entryOf t.code x) ∧ ∀ y, y ≠ x → entryOf t.code y = entryOf s.code y
end

