-- ==== Sys2Proof/Laws/State.lean ====
section
/-! SUPPORT. One lemma per field of State per named update, so that no proof unfolds a record update. -/

namespace Sys2Proof.Machine

/-! ### State.raise -/

@[simp] theorem State.raise_cmd (s : State) (e : ErrCode) (info : Word) : (s.raise e info).cmd = s.cmd := rfl
@[simp] theorem State.raise_pending (s : State) (e : ErrCode) (info : Word) : (s.raise e info).pending = s.pending := rfl
@[simp] theorem State.raise_status (s : State) (e : ErrCode) (info : Word) : (s.raise e info).status = s.status.completed e := rfl
@[simp] theorem State.raise_ie (s : State) (e : ErrCode) (info : Word) : (s.raise e info).ie = s.ie := rfl
@[simp] theorem State.raise_srcAddr (s : State) (e : ErrCode) (info : Word) : (s.raise e info).srcAddr = s.srcAddr := rfl
@[simp] theorem State.raise_srcLen (s : State) (e : ErrCode) (info : Word) : (s.raise e info).srcLen = s.srcLen := rfl
@[simp] theorem State.raise_dstAddr (s : State) (e : ErrCode) (info : Word) : (s.raise e info).dstAddr = s.dstAddr := rfl
@[simp] theorem State.raise_dstCap (s : State) (e : ErrCode) (info : Word) : (s.raise e info).dstCap = s.dstCap := rfl
@[simp] theorem State.raise_outLen (s : State) (e : ErrCode) (info : Word) : (s.raise e info).outLen = s.outLen := rfl
@[simp] theorem State.raise_pad (s : State) (e : ErrCode) (info : Word) : (s.raise e info).pad = s.pad := rfl
@[simp] theorem State.raise_payloadBits (s : State) (e : ErrCode) (info : Word) : (s.raise e info).payloadBits = s.payloadBits := rfl
@[simp] theorem State.raise_errInfo (s : State) (e : ErrCode) (info : Word) : (s.raise e info).errInfo = info := rfl
@[simp] theorem State.raise_leafCount (s : State) (e : ErrCode) (info : Word) : (s.raise e info).leafCount = s.leafCount := rfl
@[simp] theorem State.raise_nodeCount (s : State) (e : ErrCode) (info : Word) : (s.raise e info).nodeCount = s.nodeCount := rfl
@[simp] theorem State.raise_root (s : State) (e : ErrCode) (info : Word) : (s.raise e info).root = s.root := rfl
@[simp] theorem State.raise_freq (s : State) (e : ErrCode) (info : Word) : (s.raise e info).freq = s.freq := rfl
@[simp] theorem State.raise_node (s : State) (e : ErrCode) (info : Word) : (s.raise e info).node = s.node := rfl
@[simp] theorem State.raise_code (s : State) (e : ErrCode) (info : Word) : (s.raise e info).code = s.code := rfl
@[simp] theorem State.raise_pq (s : State) (e : ErrCode) (info : Word) : (s.raise e info).pq = s.pq := rfl
@[simp] theorem State.raise_dmem (s : State) (e : ErrCode) (info : Word) : (s.raise e info).dmem = s.dmem := rfl
@[simp] theorem State.raise_awOver8 (s : State) (e : ErrCode) (info : Word) : (s.raise e info).awOver8 = s.awOver8 := rfl
@[simp] theorem State.raise_powerOns (s : State) (e : ErrCode) (info : Word) : (s.raise e info).powerOns = s.powerOns := rfl
@[simp] theorem State.raise_draws (s : State) (e : ErrCode) (info : Word) : (s.raise e info).draws = s.draws := rfl
@[simp] theorem State.raise_program (s : State) (e : ErrCode) (info : Word) : (s.raise e info).program = s.program := rfl
@[simp] theorem State.raise_turns (s : State) (e : ErrCode) (info : Word) : (s.raise e info).turns = s.turns := rfl
@[simp] theorem State.raise_observed (s : State) (e : ErrCode) (info : Word) : (s.raise e info).observed = s.observed := rfl

@[simp] theorem State.raise_aw (s : State) (e : ErrCode) (info : Word) : (s.raise e info).aw = s.aw := rfl

/-! ### State.complete -/

@[simp] theorem State.complete_cmd (s : State) : (s.complete).cmd = s.cmd := rfl
@[simp] theorem State.complete_pending (s : State) : (s.complete).pending = s.pending := rfl
@[simp] theorem State.complete_status (s : State) : (s.complete).status = s.status.completed .ok := rfl
@[simp] theorem State.complete_ie (s : State) : (s.complete).ie = s.ie := rfl
@[simp] theorem State.complete_srcAddr (s : State) : (s.complete).srcAddr = s.srcAddr := rfl
@[simp] theorem State.complete_srcLen (s : State) : (s.complete).srcLen = s.srcLen := rfl
@[simp] theorem State.complete_dstAddr (s : State) : (s.complete).dstAddr = s.dstAddr := rfl
@[simp] theorem State.complete_dstCap (s : State) : (s.complete).dstCap = s.dstCap := rfl
@[simp] theorem State.complete_outLen (s : State) : (s.complete).outLen = s.outLen := rfl
@[simp] theorem State.complete_pad (s : State) : (s.complete).pad = s.pad := rfl
@[simp] theorem State.complete_payloadBits (s : State) : (s.complete).payloadBits = s.payloadBits := rfl
@[simp] theorem State.complete_errInfo (s : State) : (s.complete).errInfo = 0 := rfl
@[simp] theorem State.complete_leafCount (s : State) : (s.complete).leafCount = s.leafCount := rfl
@[simp] theorem State.complete_nodeCount (s : State) : (s.complete).nodeCount = s.nodeCount := rfl
@[simp] theorem State.complete_root (s : State) : (s.complete).root = s.root := rfl
@[simp] theorem State.complete_freq (s : State) : (s.complete).freq = s.freq := rfl
@[simp] theorem State.complete_node (s : State) : (s.complete).node = s.node := rfl
@[simp] theorem State.complete_code (s : State) : (s.complete).code = s.code := rfl
@[simp] theorem State.complete_pq (s : State) : (s.complete).pq = s.pq := rfl
@[simp] theorem State.complete_dmem (s : State) : (s.complete).dmem = s.dmem := rfl
@[simp] theorem State.complete_awOver8 (s : State) : (s.complete).awOver8 = s.awOver8 := rfl
@[simp] theorem State.complete_powerOns (s : State) : (s.complete).powerOns = s.powerOns := rfl
@[simp] theorem State.complete_draws (s : State) : (s.complete).draws = s.draws := rfl
@[simp] theorem State.complete_program (s : State) : (s.complete).program = s.program := rfl
@[simp] theorem State.complete_turns (s : State) : (s.complete).turns = s.turns := rfl
@[simp] theorem State.complete_observed (s : State) : (s.complete).observed = s.observed := rfl

@[simp] theorem State.complete_aw (s : State) : (s.complete).aw = s.aw := rfl

/-! ### State.clearResults -/

@[simp] theorem State.clearResults_cmd (s : State) : (s.clearResults).cmd = s.cmd := rfl
@[simp] theorem State.clearResults_pending (s : State) : (s.clearResults).pending = s.pending := rfl
@[simp] theorem State.clearResults_status (s : State) : (s.clearResults).status = s.status := rfl
@[simp] theorem State.clearResults_ie (s : State) : (s.clearResults).ie = s.ie := rfl
@[simp] theorem State.clearResults_srcAddr (s : State) : (s.clearResults).srcAddr = s.srcAddr := rfl
@[simp] theorem State.clearResults_srcLen (s : State) : (s.clearResults).srcLen = s.srcLen := rfl
@[simp] theorem State.clearResults_dstAddr (s : State) : (s.clearResults).dstAddr = s.dstAddr := rfl
@[simp] theorem State.clearResults_dstCap (s : State) : (s.clearResults).dstCap = s.dstCap := rfl
@[simp] theorem State.clearResults_outLen (s : State) : (s.clearResults).outLen = 0 := rfl
@[simp] theorem State.clearResults_pad (s : State) : (s.clearResults).pad = 0 := rfl
@[simp] theorem State.clearResults_payloadBits (s : State) : (s.clearResults).payloadBits = 0 := rfl
@[simp] theorem State.clearResults_errInfo (s : State) : (s.clearResults).errInfo = s.errInfo := rfl
@[simp] theorem State.clearResults_leafCount (s : State) : (s.clearResults).leafCount = s.leafCount := rfl
@[simp] theorem State.clearResults_nodeCount (s : State) : (s.clearResults).nodeCount = s.nodeCount := rfl
@[simp] theorem State.clearResults_root (s : State) : (s.clearResults).root = s.root := rfl
@[simp] theorem State.clearResults_freq (s : State) : (s.clearResults).freq = s.freq := rfl
@[simp] theorem State.clearResults_node (s : State) : (s.clearResults).node = s.node := rfl
@[simp] theorem State.clearResults_code (s : State) : (s.clearResults).code = s.code := rfl
@[simp] theorem State.clearResults_pq (s : State) : (s.clearResults).pq = s.pq := rfl
@[simp] theorem State.clearResults_dmem (s : State) : (s.clearResults).dmem = s.dmem := rfl
@[simp] theorem State.clearResults_awOver8 (s : State) : (s.clearResults).awOver8 = s.awOver8 := rfl
@[simp] theorem State.clearResults_powerOns (s : State) : (s.clearResults).powerOns = s.powerOns := rfl
@[simp] theorem State.clearResults_draws (s : State) : (s.clearResults).draws = s.draws := rfl
@[simp] theorem State.clearResults_program (s : State) : (s.clearResults).program = s.program := rfl
@[simp] theorem State.clearResults_turns (s : State) : (s.clearResults).turns = s.turns := rfl
@[simp] theorem State.clearResults_observed (s : State) : (s.clearResults).observed = s.observed := rfl

@[simp] theorem State.clearResults_aw (s : State) : (s.clearResults).aw = s.aw := rfl

/-! ### State.issue -/

@[simp] theorem State.issue_cmd (s : State) (w : Word) : (s.issue w).cmd = w := rfl
@[simp] theorem State.issue_pending (s : State) (w : Word) : (s.issue w).pending = w := rfl
@[simp] theorem State.issue_status (s : State) (w : Word) : (s.issue w).status = s.status.issued := rfl
@[simp] theorem State.issue_ie (s : State) (w : Word) : (s.issue w).ie = s.ie := rfl
@[simp] theorem State.issue_srcAddr (s : State) (w : Word) : (s.issue w).srcAddr = s.srcAddr := rfl
@[simp] theorem State.issue_srcLen (s : State) (w : Word) : (s.issue w).srcLen = s.srcLen := rfl
@[simp] theorem State.issue_dstAddr (s : State) (w : Word) : (s.issue w).dstAddr = s.dstAddr := rfl
@[simp] theorem State.issue_dstCap (s : State) (w : Word) : (s.issue w).dstCap = s.dstCap := rfl
@[simp] theorem State.issue_outLen (s : State) (w : Word) : (s.issue w).outLen = s.outLen := rfl
@[simp] theorem State.issue_pad (s : State) (w : Word) : (s.issue w).pad = s.pad := rfl
@[simp] theorem State.issue_payloadBits (s : State) (w : Word) : (s.issue w).payloadBits = s.payloadBits := rfl
@[simp] theorem State.issue_errInfo (s : State) (w : Word) : (s.issue w).errInfo = s.errInfo := rfl
@[simp] theorem State.issue_leafCount (s : State) (w : Word) : (s.issue w).leafCount = s.leafCount := rfl
@[simp] theorem State.issue_nodeCount (s : State) (w : Word) : (s.issue w).nodeCount = s.nodeCount := rfl
@[simp] theorem State.issue_root (s : State) (w : Word) : (s.issue w).root = s.root := rfl
@[simp] theorem State.issue_freq (s : State) (w : Word) : (s.issue w).freq = s.freq := rfl
@[simp] theorem State.issue_node (s : State) (w : Word) : (s.issue w).node = s.node := rfl
@[simp] theorem State.issue_code (s : State) (w : Word) : (s.issue w).code = s.code := rfl
@[simp] theorem State.issue_pq (s : State) (w : Word) : (s.issue w).pq = s.pq := rfl
@[simp] theorem State.issue_dmem (s : State) (w : Word) : (s.issue w).dmem = s.dmem := rfl
@[simp] theorem State.issue_awOver8 (s : State) (w : Word) : (s.issue w).awOver8 = s.awOver8 := rfl
@[simp] theorem State.issue_powerOns (s : State) (w : Word) : (s.issue w).powerOns = s.powerOns := rfl
@[simp] theorem State.issue_draws (s : State) (w : Word) : (s.issue w).draws = s.draws := rfl
@[simp] theorem State.issue_program (s : State) (w : Word) : (s.issue w).program = s.program := rfl
@[simp] theorem State.issue_turns (s : State) (w : Word) : (s.issue w).turns = s.turns := rfl
@[simp] theorem State.issue_observed (s : State) (w : Word) : (s.issue w).observed = s.observed := rfl

@[simp] theorem State.issue_aw (s : State) (w : Word) : (s.issue w).aw = s.aw := rfl

/-! ### State.dropWrite -/

@[simp] theorem State.dropWrite_cmd (s : State) : (s.dropWrite).cmd = s.cmd := rfl
@[simp] theorem State.dropWrite_pending (s : State) : (s.dropWrite).pending = s.pending := rfl
@[simp] theorem State.dropWrite_status (s : State) : (s.dropWrite).status = s.status.dropped := rfl
@[simp] theorem State.dropWrite_ie (s : State) : (s.dropWrite).ie = s.ie := rfl
@[simp] theorem State.dropWrite_srcAddr (s : State) : (s.dropWrite).srcAddr = s.srcAddr := rfl
@[simp] theorem State.dropWrite_srcLen (s : State) : (s.dropWrite).srcLen = s.srcLen := rfl
@[simp] theorem State.dropWrite_dstAddr (s : State) : (s.dropWrite).dstAddr = s.dstAddr := rfl
@[simp] theorem State.dropWrite_dstCap (s : State) : (s.dropWrite).dstCap = s.dstCap := rfl
@[simp] theorem State.dropWrite_outLen (s : State) : (s.dropWrite).outLen = s.outLen := rfl
@[simp] theorem State.dropWrite_pad (s : State) : (s.dropWrite).pad = s.pad := rfl
@[simp] theorem State.dropWrite_payloadBits (s : State) : (s.dropWrite).payloadBits = s.payloadBits := rfl
@[simp] theorem State.dropWrite_errInfo (s : State) : (s.dropWrite).errInfo = s.errInfo := rfl
@[simp] theorem State.dropWrite_leafCount (s : State) : (s.dropWrite).leafCount = s.leafCount := rfl
@[simp] theorem State.dropWrite_nodeCount (s : State) : (s.dropWrite).nodeCount = s.nodeCount := rfl
@[simp] theorem State.dropWrite_root (s : State) : (s.dropWrite).root = s.root := rfl
@[simp] theorem State.dropWrite_freq (s : State) : (s.dropWrite).freq = s.freq := rfl
@[simp] theorem State.dropWrite_node (s : State) : (s.dropWrite).node = s.node := rfl
@[simp] theorem State.dropWrite_code (s : State) : (s.dropWrite).code = s.code := rfl
@[simp] theorem State.dropWrite_pq (s : State) : (s.dropWrite).pq = s.pq := rfl
@[simp] theorem State.dropWrite_dmem (s : State) : (s.dropWrite).dmem = s.dmem := rfl
@[simp] theorem State.dropWrite_awOver8 (s : State) : (s.dropWrite).awOver8 = s.awOver8 := rfl
@[simp] theorem State.dropWrite_powerOns (s : State) : (s.dropWrite).powerOns = s.powerOns := rfl
@[simp] theorem State.dropWrite_draws (s : State) : (s.dropWrite).draws = s.draws := rfl
@[simp] theorem State.dropWrite_program (s : State) : (s.dropWrite).program = s.program := rfl
@[simp] theorem State.dropWrite_turns (s : State) : (s.dropWrite).turns = s.turns := rfl
@[simp] theorem State.dropWrite_observed (s : State) : (s.dropWrite).observed = s.observed := rfl

@[simp] theorem State.dropWrite_aw (s : State) : (s.dropWrite).aw = s.aw := rfl

/-! ### State.observe -/

@[simp] theorem State.observe_cmd (s : State) (o : Observation) : (s.observe o).cmd = s.cmd := rfl
@[simp] theorem State.observe_pending (s : State) (o : Observation) : (s.observe o).pending = s.pending := rfl
@[simp] theorem State.observe_status (s : State) (o : Observation) : (s.observe o).status = s.status := rfl
@[simp] theorem State.observe_ie (s : State) (o : Observation) : (s.observe o).ie = s.ie := rfl
@[simp] theorem State.observe_srcAddr (s : State) (o : Observation) : (s.observe o).srcAddr = s.srcAddr := rfl
@[simp] theorem State.observe_srcLen (s : State) (o : Observation) : (s.observe o).srcLen = s.srcLen := rfl
@[simp] theorem State.observe_dstAddr (s : State) (o : Observation) : (s.observe o).dstAddr = s.dstAddr := rfl
@[simp] theorem State.observe_dstCap (s : State) (o : Observation) : (s.observe o).dstCap = s.dstCap := rfl
@[simp] theorem State.observe_outLen (s : State) (o : Observation) : (s.observe o).outLen = s.outLen := rfl
@[simp] theorem State.observe_pad (s : State) (o : Observation) : (s.observe o).pad = s.pad := rfl
@[simp] theorem State.observe_payloadBits (s : State) (o : Observation) : (s.observe o).payloadBits = s.payloadBits := rfl
@[simp] theorem State.observe_errInfo (s : State) (o : Observation) : (s.observe o).errInfo = s.errInfo := rfl
@[simp] theorem State.observe_leafCount (s : State) (o : Observation) : (s.observe o).leafCount = s.leafCount := rfl
@[simp] theorem State.observe_nodeCount (s : State) (o : Observation) : (s.observe o).nodeCount = s.nodeCount := rfl
@[simp] theorem State.observe_root (s : State) (o : Observation) : (s.observe o).root = s.root := rfl
@[simp] theorem State.observe_freq (s : State) (o : Observation) : (s.observe o).freq = s.freq := rfl
@[simp] theorem State.observe_node (s : State) (o : Observation) : (s.observe o).node = s.node := rfl
@[simp] theorem State.observe_code (s : State) (o : Observation) : (s.observe o).code = s.code := rfl
@[simp] theorem State.observe_pq (s : State) (o : Observation) : (s.observe o).pq = s.pq := rfl
@[simp] theorem State.observe_dmem (s : State) (o : Observation) : (s.observe o).dmem = s.dmem := rfl
@[simp] theorem State.observe_awOver8 (s : State) (o : Observation) : (s.observe o).awOver8 = s.awOver8 := rfl
@[simp] theorem State.observe_powerOns (s : State) (o : Observation) : (s.observe o).powerOns = s.powerOns := rfl
@[simp] theorem State.observe_draws (s : State) (o : Observation) : (s.observe o).draws = s.draws := rfl
@[simp] theorem State.observe_program (s : State) (o : Observation) : (s.observe o).program = s.program := rfl
@[simp] theorem State.observe_turns (s : State) (o : Observation) : (s.observe o).turns = s.turns := rfl
@[simp] theorem State.observe_observed (s : State) (o : Observation) : (s.observe o).observed = s.observed ++ [o] := rfl

@[simp] theorem State.observe_aw (s : State) (o : Observation) : (s.observe o).aw = s.aw := rfl

/-! ### State.setTurns -/

@[simp] theorem State.setTurns_cmd (s : State) (ts : List Turn) : (s.setTurns ts).cmd = s.cmd := rfl
@[simp] theorem State.setTurns_pending (s : State) (ts : List Turn) : (s.setTurns ts).pending = s.pending := rfl
@[simp] theorem State.setTurns_status (s : State) (ts : List Turn) : (s.setTurns ts).status = s.status := rfl
@[simp] theorem State.setTurns_ie (s : State) (ts : List Turn) : (s.setTurns ts).ie = s.ie := rfl
@[simp] theorem State.setTurns_srcAddr (s : State) (ts : List Turn) : (s.setTurns ts).srcAddr = s.srcAddr := rfl
@[simp] theorem State.setTurns_srcLen (s : State) (ts : List Turn) : (s.setTurns ts).srcLen = s.srcLen := rfl
@[simp] theorem State.setTurns_dstAddr (s : State) (ts : List Turn) : (s.setTurns ts).dstAddr = s.dstAddr := rfl
@[simp] theorem State.setTurns_dstCap (s : State) (ts : List Turn) : (s.setTurns ts).dstCap = s.dstCap := rfl
@[simp] theorem State.setTurns_outLen (s : State) (ts : List Turn) : (s.setTurns ts).outLen = s.outLen := rfl
@[simp] theorem State.setTurns_pad (s : State) (ts : List Turn) : (s.setTurns ts).pad = s.pad := rfl
@[simp] theorem State.setTurns_payloadBits (s : State) (ts : List Turn) : (s.setTurns ts).payloadBits = s.payloadBits := rfl
@[simp] theorem State.setTurns_errInfo (s : State) (ts : List Turn) : (s.setTurns ts).errInfo = s.errInfo := rfl
@[simp] theorem State.setTurns_leafCount (s : State) (ts : List Turn) : (s.setTurns ts).leafCount = s.leafCount := rfl
@[simp] theorem State.setTurns_nodeCount (s : State) (ts : List Turn) : (s.setTurns ts).nodeCount = s.nodeCount := rfl
@[simp] theorem State.setTurns_root (s : State) (ts : List Turn) : (s.setTurns ts).root = s.root := rfl
@[simp] theorem State.setTurns_freq (s : State) (ts : List Turn) : (s.setTurns ts).freq = s.freq := rfl
@[simp] theorem State.setTurns_node (s : State) (ts : List Turn) : (s.setTurns ts).node = s.node := rfl
@[simp] theorem State.setTurns_code (s : State) (ts : List Turn) : (s.setTurns ts).code = s.code := rfl
@[simp] theorem State.setTurns_pq (s : State) (ts : List Turn) : (s.setTurns ts).pq = s.pq := rfl
@[simp] theorem State.setTurns_dmem (s : State) (ts : List Turn) : (s.setTurns ts).dmem = s.dmem := rfl
@[simp] theorem State.setTurns_awOver8 (s : State) (ts : List Turn) : (s.setTurns ts).awOver8 = s.awOver8 := rfl
@[simp] theorem State.setTurns_powerOns (s : State) (ts : List Turn) : (s.setTurns ts).powerOns = s.powerOns := rfl
@[simp] theorem State.setTurns_draws (s : State) (ts : List Turn) : (s.setTurns ts).draws = s.draws := rfl
@[simp] theorem State.setTurns_program (s : State) (ts : List Turn) : (s.setTurns ts).program = s.program := rfl
@[simp] theorem State.setTurns_turns (s : State) (ts : List Turn) : (s.setTurns ts).turns = ts := rfl
@[simp] theorem State.setTurns_observed (s : State) (ts : List Turn) : (s.setTurns ts).observed = s.observed := rfl

@[simp] theorem State.setTurns_aw (s : State) (ts : List Turn) : (s.setTurns ts).aw = s.aw := rfl

/-! ### State.setTree -/

@[simp] theorem State.setTree_cmd (s : State) (tb : TreeWork) (n : Nat) : (s.setTree tb n).cmd = s.cmd := rfl
@[simp] theorem State.setTree_pending (s : State) (tb : TreeWork) (n : Nat) : (s.setTree tb n).pending = s.pending := rfl
@[simp] theorem State.setTree_status (s : State) (tb : TreeWork) (n : Nat) : (s.setTree tb n).status = { s.status with treeValid := decide (1 ≤ n) } := rfl
@[simp] theorem State.setTree_ie (s : State) (tb : TreeWork) (n : Nat) : (s.setTree tb n).ie = s.ie := rfl
@[simp] theorem State.setTree_srcAddr (s : State) (tb : TreeWork) (n : Nat) : (s.setTree tb n).srcAddr = s.srcAddr := rfl
@[simp] theorem State.setTree_srcLen (s : State) (tb : TreeWork) (n : Nat) : (s.setTree tb n).srcLen = s.srcLen := rfl
@[simp] theorem State.setTree_dstAddr (s : State) (tb : TreeWork) (n : Nat) : (s.setTree tb n).dstAddr = s.dstAddr := rfl
@[simp] theorem State.setTree_dstCap (s : State) (tb : TreeWork) (n : Nat) : (s.setTree tb n).dstCap = s.dstCap := rfl
@[simp] theorem State.setTree_outLen (s : State) (tb : TreeWork) (n : Nat) : (s.setTree tb n).outLen = s.outLen := rfl
@[simp] theorem State.setTree_pad (s : State) (tb : TreeWork) (n : Nat) : (s.setTree tb n).pad = s.pad := rfl
@[simp] theorem State.setTree_payloadBits (s : State) (tb : TreeWork) (n : Nat) : (s.setTree tb n).payloadBits = s.payloadBits := rfl
@[simp] theorem State.setTree_errInfo (s : State) (tb : TreeWork) (n : Nat) : (s.setTree tb n).errInfo = s.errInfo := rfl
@[simp] theorem State.setTree_leafCount (s : State) (tb : TreeWork) (n : Nat) : (s.setTree tb n).leafCount = BitVec.ofNat 9 n := rfl
@[simp] theorem State.setTree_nodeCount (s : State) (tb : TreeWork) (n : Nat) : (s.setTree tb n).nodeCount = BitVec.ofNat 9 tb.next := rfl
@[simp] theorem State.setTree_root (s : State) (tb : TreeWork) (n : Nat) : (s.setTree tb n).root = tb.pq.head?.getD 0 := rfl
@[simp] theorem State.setTree_freq (s : State) (tb : TreeWork) (n : Nat) : (s.setTree tb n).freq = s.freq := rfl
@[simp] theorem State.setTree_node (s : State) (tb : TreeWork) (n : Nat) : (s.setTree tb n).node = tb.nodes := rfl
@[simp] theorem State.setTree_code (s : State) (tb : TreeWork) (n : Nat) : (s.setTree tb n).code = s.code := rfl
@[simp] theorem State.setTree_pq (s : State) (tb : TreeWork) (n : Nat) : (s.setTree tb n).pq = tb.pq := rfl
@[simp] theorem State.setTree_dmem (s : State) (tb : TreeWork) (n : Nat) : (s.setTree tb n).dmem = s.dmem := rfl
@[simp] theorem State.setTree_awOver8 (s : State) (tb : TreeWork) (n : Nat) : (s.setTree tb n).awOver8 = s.awOver8 := rfl
@[simp] theorem State.setTree_powerOns (s : State) (tb : TreeWork) (n : Nat) : (s.setTree tb n).powerOns = s.powerOns := rfl
@[simp] theorem State.setTree_draws (s : State) (tb : TreeWork) (n : Nat) : (s.setTree tb n).draws = s.draws := rfl
@[simp] theorem State.setTree_program (s : State) (tb : TreeWork) (n : Nat) : (s.setTree tb n).program = s.program := rfl
@[simp] theorem State.setTree_turns (s : State) (tb : TreeWork) (n : Nat) : (s.setTree tb n).turns = s.turns := rfl
@[simp] theorem State.setTree_observed (s : State) (tb : TreeWork) (n : Nat) : (s.setTree tb n).observed = s.observed := rfl

@[simp] theorem State.setTree_aw (s : State) (tb : TreeWork) (n : Nat) : (s.setTree tb n).aw = s.aw := rfl

/-! ### State.putStream -/

@[simp] theorem State.putStream_cmd (s : State) (bs : List Byte) (l : Nat) : (s.putStream bs l).cmd = s.cmd := rfl
@[simp] theorem State.putStream_pending (s : State) (bs : List Byte) (l : Nat) : (s.putStream bs l).pending = s.pending := rfl
@[simp] theorem State.putStream_status (s : State) (bs : List Byte) (l : Nat) : (s.putStream bs l).status = s.status := rfl
@[simp] theorem State.putStream_ie (s : State) (bs : List Byte) (l : Nat) : (s.putStream bs l).ie = s.ie := rfl
@[simp] theorem State.putStream_srcAddr (s : State) (bs : List Byte) (l : Nat) : (s.putStream bs l).srcAddr = s.srcAddr := rfl
@[simp] theorem State.putStream_srcLen (s : State) (bs : List Byte) (l : Nat) : (s.putStream bs l).srcLen = s.srcLen := rfl
@[simp] theorem State.putStream_dstAddr (s : State) (bs : List Byte) (l : Nat) : (s.putStream bs l).dstAddr = s.dstAddr := rfl
@[simp] theorem State.putStream_dstCap (s : State) (bs : List Byte) (l : Nat) : (s.putStream bs l).dstCap = s.dstCap := rfl
@[simp] theorem State.putStream_outLen (s : State) (bs : List Byte) (l : Nat) : (s.putStream bs l).outLen = wordOf (packedLength l) := rfl
@[simp] theorem State.putStream_pad (s : State) (bs : List Byte) (l : Nat) : (s.putStream bs l).pad = byteOf (padOf l) := rfl
@[simp] theorem State.putStream_payloadBits (s : State) (bs : List Byte) (l : Nat) : (s.putStream bs l).payloadBits = wordOf l := rfl
@[simp] theorem State.putStream_errInfo (s : State) (bs : List Byte) (l : Nat) : (s.putStream bs l).errInfo = s.errInfo := rfl
@[simp] theorem State.putStream_leafCount (s : State) (bs : List Byte) (l : Nat) : (s.putStream bs l).leafCount = s.leafCount := rfl
@[simp] theorem State.putStream_nodeCount (s : State) (bs : List Byte) (l : Nat) : (s.putStream bs l).nodeCount = s.nodeCount := rfl
@[simp] theorem State.putStream_root (s : State) (bs : List Byte) (l : Nat) : (s.putStream bs l).root = s.root := rfl
@[simp] theorem State.putStream_freq (s : State) (bs : List Byte) (l : Nat) : (s.putStream bs l).freq = s.freq := rfl
@[simp] theorem State.putStream_node (s : State) (bs : List Byte) (l : Nat) : (s.putStream bs l).node = s.node := rfl
@[simp] theorem State.putStream_code (s : State) (bs : List Byte) (l : Nat) : (s.putStream bs l).code = s.code := rfl
@[simp] theorem State.putStream_pq (s : State) (bs : List Byte) (l : Nat) : (s.putStream bs l).pq = s.pq := rfl
@[simp] theorem State.putStream_dmem (s : State) (bs : List Byte) (l : Nat) : (s.putStream bs l).dmem = s.dmem.writeBytes s.dstAddr.toNat (bitsBytes (streamBits s.code bs l) (packedLength l)) := rfl
@[simp] theorem State.putStream_awOver8 (s : State) (bs : List Byte) (l : Nat) : (s.putStream bs l).awOver8 = s.awOver8 := rfl
@[simp] theorem State.putStream_powerOns (s : State) (bs : List Byte) (l : Nat) : (s.putStream bs l).powerOns = s.powerOns := rfl
@[simp] theorem State.putStream_draws (s : State) (bs : List Byte) (l : Nat) : (s.putStream bs l).draws = s.draws := rfl
@[simp] theorem State.putStream_program (s : State) (bs : List Byte) (l : Nat) : (s.putStream bs l).program = s.program := rfl
@[simp] theorem State.putStream_turns (s : State) (bs : List Byte) (l : Nat) : (s.putStream bs l).turns = s.turns := rfl
@[simp] theorem State.putStream_observed (s : State) (bs : List Byte) (l : Nat) : (s.putStream bs l).observed = s.observed := rfl

@[simp] theorem State.putStream_aw (s : State) (bs : List Byte) (l : Nat) : (s.putStream bs l).aw = s.aw := rfl

/-! ### State.putScan -/

@[simp] theorem State.putScan_cmd (s : State) (w : ScanWork) (h l : Nat) : (s.putScan w h l).cmd = s.cmd := rfl
@[simp] theorem State.putScan_pending (s : State) (w : ScanWork) (h l : Nat) : (s.putScan w h l).pending = s.pending := rfl
@[simp] theorem State.putScan_status (s : State) (w : ScanWork) (h l : Nat) : (s.putScan w h l).status = s.status := rfl
@[simp] theorem State.putScan_ie (s : State) (w : ScanWork) (h l : Nat) : (s.putScan w h l).ie = s.ie := rfl
@[simp] theorem State.putScan_srcAddr (s : State) (w : ScanWork) (h l : Nat) : (s.putScan w h l).srcAddr = s.srcAddr := rfl
@[simp] theorem State.putScan_srcLen (s : State) (w : ScanWork) (h l : Nat) : (s.putScan w h l).srcLen = s.srcLen := rfl
@[simp] theorem State.putScan_dstAddr (s : State) (w : ScanWork) (h l : Nat) : (s.putScan w h l).dstAddr = s.dstAddr := rfl
@[simp] theorem State.putScan_dstCap (s : State) (w : ScanWork) (h l : Nat) : (s.putScan w h l).dstCap = s.dstCap := rfl
@[simp] theorem State.putScan_outLen (s : State) (w : ScanWork) (h l : Nat) : (s.putScan w h l).outLen = wordOf w.out := rfl
@[simp] theorem State.putScan_pad (s : State) (w : ScanWork) (h l : Nat) : (s.putScan w h l).pad = byteOf h := rfl
@[simp] theorem State.putScan_payloadBits (s : State) (w : ScanWork) (h l : Nat) : (s.putScan w h l).payloadBits = wordOf l := rfl
@[simp] theorem State.putScan_errInfo (s : State) (w : ScanWork) (h l : Nat) : (s.putScan w h l).errInfo = s.errInfo := rfl
@[simp] theorem State.putScan_leafCount (s : State) (w : ScanWork) (h l : Nat) : (s.putScan w h l).leafCount = s.leafCount := rfl
@[simp] theorem State.putScan_nodeCount (s : State) (w : ScanWork) (h l : Nat) : (s.putScan w h l).nodeCount = s.nodeCount := rfl
@[simp] theorem State.putScan_root (s : State) (w : ScanWork) (h l : Nat) : (s.putScan w h l).root = s.root := rfl
@[simp] theorem State.putScan_freq (s : State) (w : ScanWork) (h l : Nat) : (s.putScan w h l).freq = s.freq := rfl
@[simp] theorem State.putScan_node (s : State) (w : ScanWork) (h l : Nat) : (s.putScan w h l).node = s.node := rfl
@[simp] theorem State.putScan_code (s : State) (w : ScanWork) (h l : Nat) : (s.putScan w h l).code = s.code := rfl
@[simp] theorem State.putScan_pq (s : State) (w : ScanWork) (h l : Nat) : (s.putScan w h l).pq = s.pq := rfl
@[simp] theorem State.putScan_dmem (s : State) (w : ScanWork) (h l : Nat) : (s.putScan w h l).dmem = w.dmem := rfl
@[simp] theorem State.putScan_awOver8 (s : State) (w : ScanWork) (h l : Nat) : (s.putScan w h l).awOver8 = s.awOver8 := rfl
@[simp] theorem State.putScan_powerOns (s : State) (w : ScanWork) (h l : Nat) : (s.putScan w h l).powerOns = s.powerOns := rfl
@[simp] theorem State.putScan_draws (s : State) (w : ScanWork) (h l : Nat) : (s.putScan w h l).draws = s.draws := rfl
@[simp] theorem State.putScan_program (s : State) (w : ScanWork) (h l : Nat) : (s.putScan w h l).program = s.program := rfl
@[simp] theorem State.putScan_turns (s : State) (w : ScanWork) (h l : Nat) : (s.putScan w h l).turns = s.turns := rfl
@[simp] theorem State.putScan_observed (s : State) (w : ScanWork) (h l : Nat) : (s.putScan w h l).observed = s.observed := rfl

@[simp] theorem State.putScan_aw (s : State) (w : ScanWork) (h l : Nat) : (s.putScan w h l).aw = s.aw := rfl

/-! ### STATUS -/

@[simp] theorem Status.completed_busy (st : Status) (e : ErrCode) : (st.completed e).busy = false := rfl
@[simp] theorem Status.completed_done (st : Status) (e : ErrCode) : (st.completed e).done = true := rfl
@[simp] theorem Status.completed_busyWr (st : Status) (e : ErrCode) : (st.completed e).busyWr = st.busyWr := rfl
@[simp] theorem Status.completed_treeValid (st : Status) (e : ErrCode) : (st.completed e).treeValid = st.treeValid := rfl
@[simp] theorem Status.completed_errCode (st : Status) (e : ErrCode) : (st.completed e).errCode = e := rfl

@[simp] theorem Status.issued_busy (st : Status) : (st.issued).busy = true := rfl
@[simp] theorem Status.issued_done (st : Status) : (st.issued).done = false := rfl
@[simp] theorem Status.issued_busyWr (st : Status) : (st.issued).busyWr = st.busyWr := rfl
@[simp] theorem Status.issued_treeValid (st : Status) : (st.issued).treeValid = st.treeValid := rfl
@[simp] theorem Status.issued_errCode (st : Status) : (st.issued).errCode = .ok := rfl

@[simp] theorem Status.dropped_busy (st : Status) : (st.dropped).busy = st.busy := rfl
@[simp] theorem Status.dropped_done (st : Status) : (st.dropped).done = st.done := rfl
@[simp] theorem Status.dropped_busyWr (st : Status) : (st.dropped).busyWr = true := rfl
@[simp] theorem Status.dropped_treeValid (st : Status) : (st.dropped).treeValid = st.treeValid := rfl
@[simp] theorem Status.dropped_errCode (st : Status) : (st.dropped).errCode = st.errCode := rfl

@[simp] theorem Status.writeOneToClear_busy (st : Status) (v : Word) : (st.writeOneToClear v).busy = st.busy := rfl
@[simp] theorem Status.writeOneToClear_done (st : Status) (v : Word) : (st.writeOneToClear v).done = (st.done && !v.getLsbD 1) := rfl
@[simp] theorem Status.writeOneToClear_busyWr (st : Status) (v : Word) : (st.writeOneToClear v).busyWr = (st.busyWr && !v.getLsbD 3) := rfl
@[simp] theorem Status.writeOneToClear_treeValid (st : Status) (v : Word) : (st.writeOneToClear v).treeValid = st.treeValid := rfl
@[simp] theorem Status.writeOneToClear_errCode (st : Status) (v : Word) : (st.writeOneToClear v).errCode = st.errCode := rfl

end Sys2Proof.Machine
end

