-- ==== Sys2Proof/Laws/Memory.lean ====
section
/-! SUPPORT. DMEM: a read after a write, the canonical form, and what no operation lists outside a bound
(20_memory.md R73, R76, R89). -/

namespace Sys2Proof.Machine

/-! ### One byte -/

theorem Memory.find_write_same (m : Memory) (a : Nat) (v : Byte) : (m.write a v).find a = some v := by
  induction m with
  | nil => simp [Memory.write, Memory.find]
  | cons c m' ih =>
    unfold Memory.write
    split_ifs with h1 h2
    · simp [Memory.find]
    · simp [Memory.find]
    · simp [Memory.find, h2, ih]

theorem Memory.find_write_other (m : Memory) {a x : Nat} (v : Byte) (h : x ≠ a) :
    (m.write a v).find x = m.find x := by
  induction m with
  | nil => simp [Memory.write, Memory.find, Ne.symm h]
  | cons c m' ih =>
    unfold Memory.write
    split_ifs with h1 h2
    · simp [Memory.find, Ne.symm h]
    · have hx : c.1 ≠ x := h2 ▸ Ne.symm h
      simp [Memory.find, hx, Ne.symm h]
    · by_cases hx : c.1 = x <;> simp [Memory.find, hx, ih]

/-- A read after one write. -/
theorem Memory.find_write (m : Memory) (a x : Nat) (v : Byte) :
    (m.write a v).find x = if x = a then some v else m.find x := by
  by_cases h : x = a
  · rw [if_pos h, h, Memory.find_write_same]
  · rw [if_neg h, Memory.find_write_other m v h]

/-! ### Runs of bytes -/

/-- A read after a run of writes: the byte of the run inside it, the old byte outside. -/
theorem Memory.find_writeBytes (vs : List Byte) (m : Memory) (a x : Nat) :
    (m.writeBytes a vs).find x = if h : a ≤ x ∧ x < a + vs.length then some (vs[x - a]'(by omega)) else m.find x := by
  induction vs generalizing m a with
  | nil =>
    rw [dif_neg]
    · rfl
    · simp
  | cons v vs ih =>
    rw [Memory.writeBytes, ih, Memory.find_write]
    by_cases hx : x = a
    · subst hx
      rw [dif_neg (by omega), if_pos rfl, dif_pos (by simp)]
      simp
    · by_cases hin : a + 1 ≤ x ∧ x < a + 1 + vs.length
      · have hout : a ≤ x ∧ x < a + (v :: vs).length := by simp only [List.length_cons]; omega
        rw [dif_pos hin, dif_pos hout]
        have e : x - a = (x - (a + 1)) + 1 := by omega
        simp only [e, List.getElem_cons_succ]
      · have hout : ¬ (a ≤ x ∧ x < a + (v :: vs).length) := by simp only [List.length_cons]; omega
        rw [dif_neg hin, dif_neg hout, if_neg hx]

/-- A read after a window was drawn: the draw of its place inside the window, the old byte outside. -/
theorem Memory.find_drawWindow (n : Nat) (m : Memory) (a k x : Nat) :
    (m.drawWindow a k n).find x = if a ≤ x ∧ x < a + n then some (Config.freeByte (k + (x - a))) else m.find x := by
  induction n generalizing m a k with
  | zero =>
    rw [if_neg (by omega)]
    rfl
  | succ n ih =>
    rw [Memory.drawWindow, ih, Memory.find_write]
    by_cases hx : x = a
    · subst hx
      rw [if_neg (by omega), if_pos rfl, if_pos (by omega)]
      simp
    · by_cases hin : a + 1 ≤ x ∧ x < a + 1 + n
      · rw [if_pos hin, if_pos (by omega)]
        congr 2
        omega
      · rw [if_neg hin, if_neg hx, if_neg (by omega)]

/-! ### The canonical form -/

theorem Memory.mem_write {m : Memory} {a : Nat} {v : Byte} {c : Host.Cell} (h : c ∈ m.write a v) :
    c = (a, v) ∨ c ∈ m := by
  induction m with
  | nil => simpa [Memory.write] using h
  | cons d m' ih =>
    unfold Memory.write at h
    split_ifs at h
    · simpa using h
    · rcases List.mem_cons.mp h with h | h
      · exact .inl h
      · exact .inr (List.mem_cons_of_mem _ h)
    · rcases List.mem_cons.mp h with h | h
      · exact .inr (h ▸ List.mem_cons_self)
      · exact (ih h).imp_right (List.mem_cons_of_mem _)

theorem Memory.write_wf {m : Memory} (h : m.wf) (a : Nat) (v : Byte) : (m.write a v).wf := by
  induction m with
  | nil => simp [Memory.write, Memory.wf]
  | cons c m' ih =>
    have hc := List.pairwise_cons.mp h
    unfold Memory.write
    split_ifs with h1 h2
    · refine List.pairwise_cons.mpr ⟨?_, h⟩
      intro d hd
      rcases List.mem_cons.mp hd with rfl | hd
      · exact h1
      · exact h1.trans (hc.1 d hd)
    · exact List.pairwise_cons.mpr ⟨fun d hd => h2 ▸ hc.1 d hd, hc.2⟩
    · refine List.pairwise_cons.mpr ⟨?_, ih hc.2⟩
      intro d hd
      rcases Memory.mem_write hd with rfl | hd
      · show c.1 < a
        omega
      · exact hc.1 d hd

theorem Memory.writeBytes_wf (vs : List Byte) {m : Memory} (h : m.wf) (a : Nat) : (m.writeBytes a vs).wf := by
  induction vs generalizing m a with
  | nil => exact h
  | cons v vs ih => exact ih (Memory.write_wf h a v) (a + 1)

theorem Memory.drawWindow_wf (n : Nat) {m : Memory} (h : m.wf) (a k : Nat) : (m.drawWindow a k n).wf := by
  induction n generalizing m a k with
  | zero => exact h
  | succ n ih => exact ih (Memory.write_wf h a _) (a + 1) (k + 1)

theorem State.reset_dmem_wf : State.reset.dmem.wf := by simp [State.reset, Memory.wf]

/-! ### Addresses below a bound -/

/-- Every listed address lies below `b`. -/
def Memory.Below (m : Memory) (b : Nat) : Prop := ∀ c ∈ m, c.1 < b

theorem Memory.write_below {m : Memory} {b : Nat} (h : m.Below b) {a : Nat} (v : Byte) (ha : a < b) :
    (m.write a v).Below b := by
  intro c hc
  rcases Memory.mem_write hc with rfl | hc
  · exact ha
  · exact h c hc

theorem Memory.writeBytes_below (vs : List Byte) {m : Memory} {b : Nat} (h : m.Below b) {a : Nat}
    (ha : a + vs.length ≤ b) : (m.writeBytes a vs).Below b := by
  induction vs generalizing m a with
  | nil => exact h
  | cons v vs ih =>
    simp only [List.length_cons] at ha
    exact ih (Memory.write_below h v (by omega)) (by omega)

theorem Memory.drawWindow_below (n : Nat) {m : Memory} {b : Nat} (h : m.Below b) {a : Nat} (k : Nat)
    (ha : a + n ≤ b) : (m.drawWindow a k n).Below b := by
  induction n generalizing m a k with
  | zero => exact h
  | succ n ih => exact ih (Memory.write_below h _ (by omega)) (k + 1) (by omega)

/-! ### Ranges -/

theorem State.aw_ge (s : State) : 8 ≤ s.aw := by simp [State.aw, Config.minAW]

theorem State.aw_le (s : State) : s.aw ≤ 28 := by
  have := s.awOver8.isLt
  simp only [State.aw, Config.minAW]
  omega

/-- `in_dmem` says what 20_memory.md R89 says. -/
theorem inDmem_iff (s : State) (a n : Nat) : s.inDmem a n = true ↔ a + n ≤ 2 ^ s.aw := by
  have h1 : 2 ^ 8 ≤ 2 ^ s.aw := Nat.pow_le_pow_right (by decide) s.aw_ge
  have h2 : 2 ^ s.aw ≤ 2 ^ 28 := Nat.pow_le_pow_right (by decide) s.aw_le
  unfold State.inDmem Config.minAW Config.maxAW
  split_ifs with h3 h4
  · simp only [true_iff]; omega
  · simp only [false_iff]; omega
  · simp

theorem overlap_iff (a1 n1 a2 n2 : Nat) :
    overlap a1 n1 a2 n2 = true ↔ 0 < n1 ∧ 0 < n2 ∧ a1 < a2 + n2 ∧ a2 < a1 + n1 := by
  simp [overlap, and_assoc]

/-- Where the range checks of PACK and UNPACK pass (20_memory.md R89). -/
theorem rangeError_eq_none_iff (s : State) :
    s.rangeError = none ↔
      s.srcAddr.toNat + s.srcLen.toNat ≤ 2 ^ s.aw ∧ s.dstAddr.toNat + s.dstCap.toNat ≤ 2 ^ s.aw ∧
        ¬ (0 < s.srcLen.toNat ∧ 0 < s.dstCap.toNat ∧ s.srcAddr.toNat < s.dstAddr.toNat + s.dstCap.toNat ∧
          s.dstAddr.toNat < s.srcAddr.toNat + s.srcLen.toNat) := by
  rw [← inDmem_iff, ← inDmem_iff, ← overlap_iff]
  unfold State.rangeError State.srcInDmem State.dstInDmem State.srcDstOverlap
  split_ifs <;> simp_all

/-- An error of the range checks is E_BOUNDS or E_OVERLAP. -/
theorem rangeError_code {s : State} {e : ErrCode} {info : Word} (h : s.rangeError = some (e, info)) :
    e = .bounds ∨ e = .overlap := by
  unfold State.rangeError at h
  split_ifs at h <;> simp_all

/-! ### What a read of DMEM depends on -/

theorem memRead_congr {s t : State} (hm : t.dmem = s.dmem) (hp : t.powerOns = s.powerOns) (a : Nat) :
    t.memRead a = s.memRead a := by
  unfold State.memRead
  rw [hm, hp]

@[simp] theorem memBytes_length (s : State) (a n : Nat) : (s.memBytes a n).length = n := by
  simp [State.memBytes]

@[simp] theorem srcBytes_length (s : State) : s.srcBytes.length = s.srcLen.toNat := by
  simp [State.srcBytes]

end Sys2Proof.Machine
end

