-- ==== Sys2Proof/Laws/PerInstr.lean ====
section
/-! SUPPORT. A statement about every command as syntax, one lemma per constructor. -/

namespace Sys2Proof.Laws.EncodeLegal

/-- The word of the command is legal (30_encoding.md R101). -/
def Statement (i : Instr) : Prop := legalWord (encode i) = true

theorem nop : Statement .nop := by unfold Statement; decide
theorem count : Statement .count := by unfold Statement; decide
theorem build : Statement .build := by unfold Statement; decide
theorem gencodes : Statement .gencodes := by unfold Statement; decide
theorem pack : Statement .pack := by unfold Statement; decide
theorem unpack : Statement .unpack := by unfold Statement; decide
theorem clearFreq : Statement .clearFreq := by unfold Statement; decide
theorem clearCodes : Statement .clearCodes := by unfold Statement; decide

end Sys2Proof.Laws.EncodeLegal
end

