-- ==== Sys2Proof/Laws/Tables.lean ====
section
/-! SUPPORT. The tables and the bit strings: small laws of their accessors. -/

namespace Sys2Proof.Machine

@[simp] theorem entryOf_setEntry_same {α : Type} (t : Vector α 256) (s : Byte) (v : α) :
    entryOf (setEntry t s v) s = v := by
  simp [entryOf, setEntry, Vector.get_eq_getElem]

theorem entryOf_setEntry_other {α : Type} (t : Vector α 256) {s x : Byte} (v : α) (h : x ≠ s) :
    entryOf (setEntry t s v) x = entryOf t x := by
  have hne : s.toNat ≠ x.toNat := fun e => h (BitVec.eq_of_toNat_eq e.symm)
  simp [entryOf, setEntry, Vector.get_eq_getElem, hne]

@[simp] theorem NodeTable.entry_setEntry_same (t : NodeTable) (k : NodeIdx) (nd : Node) :
    (NodeTable.setEntry t k nd).entry k = nd := by
  simp [NodeTable.entry, NodeTable.setEntry, Vector.get_eq_getElem]

theorem NodeTable.entry_setEntry_other (t : NodeTable) {k j : NodeIdx} (nd : Node) (h : j ≠ k) :
    (NodeTable.setEntry t k nd).entry j = NodeTable.entry t j := by
  have hne : k.val ≠ j.val := fun e => h (Fin.ext e.symm)
  simp [NodeTable.entry, NodeTable.setEntry, Vector.get_eq_getElem, hne]

@[simp] theorem entryOf_freqZero (s : Byte) : entryOf FreqTable.zero s = 0 := by
  simp [entryOf, FreqTable.zero, Vector.get_eq_getElem]

@[simp] theorem entryOf_codeZero (s : Byte) : entryOf CodeTable.zero s = CodeEntry.zero := by
  simp [entryOf, CodeTable.zero, Vector.get_eq_getElem]

@[simp] theorem entry_nodeZero (k : NodeIdx) : NodeTable.entry NodeTable.zero k = Node.zero := by
  simp [NodeTable.entry, NodeTable.zero, Vector.get_eq_getElem]

@[simp] theorem length_msbBits (v n : Nat) : (msbBits v n).length = n := by simp [msbBits]

@[simp] theorem length_byteBits (b : Byte) : (byteBits b).length = 8 := by simp [byteBits]

@[simp] theorem length_zeros (k : Nat) : (zeros k).length = k := by simp [zeros]

@[simp] theorem length_codeBits (e : CodeEntry) : e.bits.length = e.len.toNat := by simp [CodeEntry.bits]

@[simp] theorem length_bitsBytes (b : BitString) (m : Nat) : (bitsBytes b m).length = m := by simp [bitsBytes]

@[simp] theorem length_bytesBits (bs : List Byte) : (bytesBits bs).length = 8 * bs.length := by
  induction bs with
  | nil => rfl
  | cons b bs ih =>
    have : bytesBits (b :: bs) = byteBits b ++ bytesBits bs := rfl
    rw [this, List.length_append, ih, length_byteBits, List.length_cons]
    omega

/-- extra_padding lies in 1..8 (44_bit_packer.md R213). -/
theorem padOf_range (l : Nat) : 1 ≤ padOf l ∧ padOf l ≤ 8 := by
  unfold padOf
  omega

end Sys2Proof.Machine
end

