-- ==== Sys2Proof/Laws/Steps.lean ====
section
/-! SUPPORT. What a step can do, said once: whose turn it was, and what each agent's step can do. -/

namespace Sys2Proof.Machine

/-- A turn that ends in a next state is a step of the Host, a step of the Core, a reset or a power-on. -/
theorem takeTurn_cases {x : Turn} {s t : State} (h : takeTurn x s = .next t) :
    (x = .host ∧ hostStep s = .next t) ∨ (x = .core ∧ coreStep s = .next t) ∨
      (x = .reset ∧ t = s.resetBlock) ∨ (x = .powerOn ∧ t = s.powerOn) := by
  cases x with
  | host => exact .inl ⟨rfl, h⟩
  | core => exact .inr (.inl ⟨rfl, h⟩)
  | reset => exact .inr (.inr (.inl ⟨rfl, ((Host.Outcome.next.injEq _ _).mp h).symm⟩))
  | powerOn => exact .inr (.inr (.inr ⟨rfl, ((Host.Outcome.next.injEq _ _).mp h).symm⟩))

/-- Bit 0 of the STATUS word is BUSY (10_state.md R26). -/
@[simp] theorem status_word_busy (st : Status) : st.word.getLsbD 0 = st.busy := by
  obtain ⟨b, d, w, v, e⟩ := st
  cases b <;> cases d <;> cases w <;> cases v <;> cases e <;> decide

/-- A read of STATUS is defined in every state, and is its word (20_memory.md R78). -/
@[simp] theorem readReg_status (s : State) : s.readReg (regOffset .status) = s.status.word := by
  unfold State.readReg State.readIsFree
  rw [show regAt (regOffset .status) = some .status by decide +kernel]
  simp [volatileReg, State.regValue]

/-- A read of STATUS draws nothing: the Host records its word. -/
theorem hostReadReg_status (s : State) :
    s.hostReadReg (regOffset .status) = s.observe (.reg (regOffset .status) s.status.word) := by
  unfold State.hostReadReg
  rw [readReg_status]
  unfold State.readIsFree
  rw [show regAt (regOffset .status) = some .status by decide +kernel]
  simp [volatileReg, State.observe]

/-- All that a Host step can be: nothing, its next transaction, a poll of STATUS that leaves a WAIT in place, or one that
passes it (30_encoding.md R112, R114). -/
theorem hostStep_eq (s : State) :
    (s.program = [] ∧ hostStep s = .next s) ∨
      (∃ x rest, s.program = .bus x :: rest ∧ hostStep s = ({ s with program := rest } : State).transact x) ∨
      (∃ rest, s.program = .wait :: rest ∧ s.status.busy = true ∧
        hostStep s = .next (s.observe (.reg (regOffset .status) s.status.word))) ∨
      (∃ rest, s.program = .wait :: rest ∧ s.status.busy = false ∧
        hostStep s =
          .next (({ s with program := rest } : State).observe (.reg (regOffset .status) s.status.word))) := by
  unfold hostStep
  cases hp : s.program with
  | nil => exact .inl ⟨rfl, rfl⟩
  | cons op rest =>
    cases op with
    | bus x => exact .inr (.inl ⟨x, rest, rfl, rfl⟩)
    | wait =>
      have hw : s.hostOp .wait rest =
          if s.status.busy then .next (s.hostReadReg (regOffset .status))
          else .next (({ s with program := rest } : State).hostReadReg (regOffset .status)) := by
        unfold State.hostOp
        rw [readReg_status, status_word_busy]
      cases hb : s.status.busy with
      | true =>
        rw [hb, if_pos rfl, hostReadReg_status] at hw
        exact .inr (.inr (.inl ⟨rest, rfl, rfl, hw⟩))
      | false =>
        rw [hb, if_neg Bool.false_ne_true, hostReadReg_status] at hw
        exact .inr (.inr (.inr ⟨rest, rfl, rfl, hw⟩))

/-- A Core step that ends in a next state executed the pending word, or the Core was idle. -/
theorem coreStep_cases {s t : State} (h : coreStep s = .next t) :
    (s.status.busy = false ∧ t = s) ∨
      (s.status.busy = true ∧ ∃ i, decode s.pending = .ok i ∧ exec i s = .next t) ∨
      (s.status.busy = true ∧ ∃ r, decode s.pending = .error r ∧ t = s.raise .illegalCmd s.pending) := by
  unfold coreStep at h
  cases hb : s.status.busy with
  | false =>
    rw [hb] at h
    exact .inl ⟨rfl, ((Host.Outcome.next.injEq _ _).mp h).symm⟩
  | true =>
    rw [hb, if_pos rfl] at h
    cases hd : decode s.pending with
    | ok i =>
      rw [hd] at h
      exact .inr (.inl ⟨rfl, i, rfl, h⟩)
    | error r =>
      rw [hd] at h
      exact .inr (.inr ⟨rfl, r, rfl, ((Host.Outcome.next.injEq _ _).mp h).symm⟩)

/-- A transaction that ends in a next state is one of the four, its DMEM address inside DMEM. -/
theorem transact_cases {s t : State} {x : Transaction} (h : s.transact x = .next t) :
    (∃ o v, x = .wrReg o v ∧ t = s.hostWriteReg o v) ∨ (∃ o, x = .rdReg o ∧ t = s.hostReadReg o) ∨
      (∃ a b, x = .wrDmem a b ∧ a < 2 ^ s.aw ∧ t = s.hostWriteDmem a b) ∨
      (∃ a, x = .rdDmem a ∧ a < 2 ^ s.aw ∧ t = s.hostReadDmem a) := by
  cases x with
  | wrReg o v => exact .inl ⟨o, v, rfl, ((Host.Outcome.next.injEq _ _).mp h).symm⟩
  | rdReg o => exact .inr (.inl ⟨o, rfl, ((Host.Outcome.next.injEq _ _).mp h).symm⟩)
  | wrDmem a b =>
    simp only [State.transact] at h
    split at h
    · rename_i hin
      exact .inr (.inr (.inl ⟨a, b, rfl, by have := (inDmem_iff s a 1).mp hin; omega,
        ((Host.Outcome.next.injEq _ _).mp h).symm⟩))
    · cases h
  | rdDmem a =>
    simp only [State.transact] at h
    split at h
    · rename_i hin
      exact .inr (.inr (.inr ⟨a, rfl, by have := (inDmem_iff s a 1).mp hin; omega,
        ((Host.Outcome.next.injEq _ _).mp h).symm⟩))
    · cases h

/-- A write of a register leaves the block as it is, notes a dropped write, or puts the value. -/
theorem hostWriteReg_cases (s : State) (o : Offset) (v : Word) :
    (s.status.busy = true ∧ s.hostWriteReg o v = s.dropWrite) ∨
      (s.status.busy = false ∧ regAt o = none ∧ s.hostWriteReg o v = s) ∨
      (s.status.busy = false ∧ ∃ r, regAt o = some r ∧ s.hostWriteReg o v = s.putReg r v) := by
  unfold State.hostWriteReg
  cases hb : s.status.busy with
  | true => exact .inl ⟨rfl, rfl⟩
  | false =>
    cases hr : regAt o with
    | none => exact .inr (.inl ⟨rfl, rfl, rfl⟩)
    | some r => exact .inr (.inr ⟨rfl, r, rfl, rfl⟩)

/-- The commands that need no tree always complete. -/
theorem exec_next_of_ne_gencodes (i : Instr) (h : i ≠ .gencodes) (s : State) : ∃ t, exec i s = .next t := by
  cases i with
  | gencodes => exact absurd rfl h
  | count =>
    cases hc : s.srcInDmem <;> simp [exec, execCount, hc]
  | nop => exact ⟨_, rfl⟩
  | build => exact ⟨_, rfl⟩
  | pack => exact ⟨_, rfl⟩
  | unpack => exact ⟨_, rfl⟩
  | clearFreq => exact ⟨_, rfl⟩
  | clearCodes => exact ⟨_, rfl⟩

end Sys2Proof.Machine
end

