-- ==== Sys2Proof/Tests/Slice0.lean ====
section
/-! SUPPORT. Tests of the model. Every expected value is a vector of spec/95_test_vectors.md, named in the comment, or is
worked out by hand from the rule named. The witnesses of the statements' hypotheses are in Tests/Witnesses.lean. -/

namespace Sys2Proof.Tests

set_option Elab.async false

open Sys2Proof Sys2Proof.Machine

/-! ### Small states -/

/-- The reset state of a machine with AW = 12, as the vectors have it. -/
def base : State := { State.reset with awOver8 := 4 }

/-- `s` with source and destination set. -/
def args (s : State) (src n dst cap : Nat) : State :=
  { s with srcAddr := wordOf src, srcLen := wordOf n, dstAddr := wordOf dst, dstCap := wordOf cap }

/-- `s` with bytes placed in DMEM. -/
def put (s : State) (a : Nat) (bs : List Byte) : State := { s with dmem := s.dmem.writeBytes a bs }

/-- The outcome is a next state with the property. -/
def nextIs (o : Host.Outcome State Fault Refusal) (p : State → Bool) : Bool :=
  match o with
  | .next t => p t
  | .fault _ => false
  | .refused _ => false

/-- The outcome is that fault. -/
def faultIs (o : Host.Outcome State Fault Refusal) (f : Fault) : Bool :=
  match o with
  | .next _ => false
  | .fault g => f == g
  | .refused _ => false

/-- "aaaabbcd". -/
def text : List Byte := [0x61, 0x61, 0x61, 0x61, 0x62, 0x62, 0x63, 0x64]

/-- Table T1 of 95_test_vectors.md. -/
def tableT1 : CodeTable :=
  setEntry (setEntry (setEntry (setEntry CodeTable.zero 0x61 { len := 1, val := 0 }) 0x62 { len := 2, val := 2 })
    0x63 { len := 3, val := 6 }) 0x64 { len := 3, val := 7 }

/-- NODE of vector TB-1. -/
def nodesTB1 : NodeTable :=
  ((((((NodeTable.zero.setEntry 0 ⟨4, true, 0x61, 0, 0⟩).setEntry 1 ⟨2, true, 0x62, 0, 0⟩).setEntry 2
    ⟨1, true, 0x63, 0, 0⟩).setEntry 3 ⟨1, true, 0x64, 0, 0⟩).setEntry 4 ⟨2, false, 0, 2, 3⟩).setEntry 5
    ⟨4, false, 0, 1, 4⟩).setEntry 6 ⟨8, false, 0, 0, 5⟩

/-- The state with the tree of vector TB-1. -/
def stateTB1 : State :=
  { base with
    node := nodesTB1, root := 6, leafCount := 4, nodeCount := 7, pq := [6]
    status := { base.status with treeValid := true } }

/-! ### Well-formedness refuses -/

-- 30_encoding.md R101: RSVD must be 0, OP at most 7.
theorem test_legalWord_refuses_op8 : legalWord 0x00000008 = false := by decide
theorem test_legalWord_refuses_rsvd : legalWord 0x00000011 = false := by decide
theorem test_legalWord_accepts_op7 : legalWord 0x00000007 = true := by decide

-- 30_encoding.md R109: a code has 1 to 255 bits.
theorem test_code_refuses_empty : codeWellFormed [] = false := by decide
theorem test_code_refuses_256_bits : codeWellFormed (List.replicate 256 true) = false := by decide +kernel
theorem test_code_accepts_255_bits : codeWellFormed (List.replicate 255 true) = true := by decide +kernel

-- 20_memory.md R75: with AW = 12 the last DMEM address is 0xFFF.
theorem test_transaction_refuses_write_0x1000 : (Transaction.wrDmem 0x1000 0).wellFormed 12 = false := by decide
theorem test_transaction_refuses_read_0x1000 : (Transaction.rdDmem 0x1000).wellFormed 12 = false := by decide
theorem test_transaction_accepts_0xFFF : (Transaction.rdDmem 0xFFF).wellFormed 12 = true := by decide
theorem test_hostOp_refuses_0x1000 : (HostOp.bus (.rdDmem 0x1000)).wellFormed 12 = false := by decide
theorem test_stmt_refuses_wrb : (HostStmt.wrb 0xFFF [1, 2]).wellFormed 12 = false := by decide
theorem test_stmt_refuses_rdb : (HostStmt.rdb 0x1000).wellFormed 12 = false := by decide
theorem test_stmt_refuses_wrstr : (HostStmt.wrstr 0xFFF [1, 2]).wellFormed 12 = false := by decide
theorem test_stmt_refuses_loadcode : (HostStmt.loadcode 0x61 []).wellFormed 12 = false := by decide

/-! ### Decoding -/

-- The words of 30_encoding.md R104, bit by bit from the format of R100: RSVD = 0 in bits 31:4, OP in bits 3:0.
theorem test_decode_nop : decode 0b00000000000000000000000000000000 = .ok .nop := by decide
theorem test_decode_count : decode 0b00000000000000000000000000000001 = .ok .count := by decide
theorem test_decode_build : decode 0b00000000000000000000000000000010 = .ok .build := by decide
theorem test_decode_gencodes : decode 0b00000000000000000000000000000011 = .ok .gencodes := by decide
theorem test_decode_pack : decode 0b00000000000000000000000000000100 = .ok .pack := by decide
theorem test_decode_unpack : decode 0b00000000000000000000000000000101 = .ok .unpack := by decide
theorem test_decode_clearFreq : decode 0b00000000000000000000000000000110 = .ok .clearFreq := by decide
theorem test_decode_clearCodes : decode 0b00000000000000000000000000000111 = .ok .clearCodes := by decide

-- CT-2, CT-3, CT-4, CT-5.
theorem test_decode_rejects_0xF : decode 0x0000000F = .error .reservedOp := by decide
theorem test_decode_rejects_0x11 : decode 0x00000011 = .error .reservedBits := by decide
theorem test_decode_rejects_0x80000004 : decode 0x80000004 = .error .reservedBits := by decide
theorem test_decode_rejects_0x8 : decode 0x00000008 = .error .reservedOp := by decide

-- Every table row decodes, and runs as the first command after reset.
theorem test_tableWord_pack : decodeTableWord 32 4 = some .pack := by decide
theorem test_rows_decode : ∀ w < 8, (decodeTableWord 32 w).isSome = true := by decide
theorem test_rows_run_after_reset : ∀ w < 8, nextIs (step (State.reset.withFetchWord 32 w)) (·.status.done) = true := by
  decide +kernel

/-! ### Control -/

-- CT-7: NOP with TREE_VALID = 1 gives STATUS 0x12; CT-6: after an error, ERR_INFO and ERRCODE are 0.
theorem test_nop_keeps_treeValid : nextIs (exec .nop stateTB1) (·.status.word == 0x12) = true := by decide +kernel
theorem test_nop_clears_error :
    nextIs (exec .nop ({ base with errInfo := 0xF } : State)) (fun t => t.errInfo == 0 && t.status.word == 2) = true := by
  decide +kernel

-- CT-2: the illegal word 0xF, issued and executed.
theorem test_illegal_word :
    nextIs (step (base.withFetchWord 32 0xF))
      (fun t => t.status.word == 0x106 && t.errInfo == 0xF && t.cmd == 0xF) = true := by decide +kernel

/-! ### Frequency counter -/

-- FC-1.
theorem test_count_aaaabbcd :
    nextIs (exec .count (args (put base 0 text) 0 8 0 0))
      (fun t => entryOf t.freq 0x61 == 4 && entryOf t.freq 0x62 == 2 && entryOf t.freq 0x64 == 1 &&
        entryOf t.freq 0 == 0) = true := by decide +kernel

-- FC-3: one byte past 2^12, with FREQ[05] = 9 kept.
theorem test_count_bounds :
    nextIs (exec .count (args { base with freq := setEntry FreqTable.zero 5 9 } 0x1000 1 0 0))
      (fun t => t.status.word == 0x206 && t.errInfo == 0 && entryOf t.freq 5 == 9) = true := by decide +kernel

-- FC-6.
theorem test_clearFreq :
    nextIs (exec .clearFreq { base with freq := setEntry FreqTable.zero 0xFF 9 }) (fun t => entryOf t.freq 0xFF == 0) =
      true := by decide +kernel

/-! ### Tree builder -/

-- TB-2: b is extracted first and becomes LEFT.
theorem test_build_left_is_first :
    nextIs (exec .build { base with freq := setEntry (setEntry FreqTable.zero 0x61 8) 0x62 1 })
      (fun t => t.node.entry 2 == ⟨9, false, 0, 1, 0⟩ && t.root == 2 && t.nodeCount == 3 && t.pq == [2]) = true := by
  decide +kernel

-- TB-6: leaves a and d beat the internal node of equal weight.
theorem test_build_leaf_before_internal :
    nextIs (exec .build { base with
        freq := setEntry (setEntry (setEntry (setEntry FreqTable.zero 0x61 2) 0x62 1) 0x63 1) 0x64 2 })
      (fun t => t.node.entry 4 == ⟨2, false, 0, 1, 2⟩ && t.node.entry 5 == ⟨4, false, 0, 0, 3⟩ &&
        t.node.entry 6 == ⟨6, false, 0, 4, 5⟩) = true := by
  decide +kernel

/-! ### Code table generator -/

-- CG-10: T1 exactly, with a stale entry and stale VAL bits gone.
theorem test_gencodes_TB1 :
    nextIs (exec .gencodes { stateTB1 with
        code := setEntry (setEntry CodeTable.zero 0x7A { len := 2, val := 3 }) 0x61 { len := 0, val := 0xFFFFFFFE } })
      (fun t => entryOf t.code 0x61 == ⟨1, 0⟩ && entryOf t.code 0x62 == ⟨2, 2⟩ && entryOf t.code 0x63 == ⟨3, 6⟩ &&
        entryOf t.code 0x64 == ⟨3, 7⟩ && entryOf t.code 0x7A == ⟨0, 0⟩) = true := by decide +kernel

-- CG-8: one leaf, code "0".
theorem test_gencodes_one_leaf :
    nextIs (exec .gencodes { base with
        node := NodeTable.zero.setEntry 0 ⟨4, true, 0x61, 0, 0⟩
        status := { base.status with treeValid := true } })
      (fun t => entryOf t.code 0x61 == ⟨1, 0⟩ && entryOf t.code 0x62 == ⟨0, 0⟩) = true := by decide +kernel

-- log 9: a NODE table no BUILD leaves, whose root is its own child, stops the model.
theorem test_gencodes_endless :
    faultIs (exec .gencodes { base with status := { base.status with treeValid := true } }) .treeTooDeep = true := by
  decide +kernel

-- CG-12.
theorem test_clearCodes :
    nextIs (exec .clearCodes { base with code := tableT1 }) (fun t => entryOf t.code 0x64 == ⟨0, 0⟩) = true := by
  decide +kernel

/-! ### Bit packer -/

-- BP-21: output that ends at the top of DMEM.
theorem test_pack_aaaabbcd :
    nextIs (exec .pack (args (put { base with code := tableT1 } 0 text) 0 8 0xFFD 3))
      (fun t => t.memBytes 0xFFD 3 == [0x02, 0x0A, 0xDC] && t.outLen == 3 && t.pad == 2 && t.payloadBits == 14) =
        true := by decide +kernel

-- BP-6 with its table: a payload that is a multiple of 8 gets PAD 8.
theorem test_pack_pad8 :
    nextIs (exec .pack (args (put { base with code := setEntry (setEntry CodeTable.zero 0x61 ⟨1, 0⟩) 0x62 ⟨1, 1⟩ } 0
        [0x61, 0x62, 0x61, 0x62, 0x61, 0x62, 0x61, 0x62]) 0 8 0x100 16))
      (fun t => t.memBytes 0x100 3 == [0x08, 0x55, 0x00] && t.outLen == 3 && t.pad == 8) = true := by decide +kernel

/-! ### Bit unpacker -/

-- BU-1.
theorem test_unpack_aaaabbcd :
    nextIs (exec .unpack (args (put { base with code := tableT1 } 0 [0x02, 0x0A, 0xDC]) 0 3 0x100 16))
      (fun t => t.memBytes 0x100 8 == text && t.outLen == 8 && t.status.word == 2) = true := by decide +kernel

-- BU-9: the symbols before the trailing bits stay.
theorem test_unpack_trailing :
    nextIs (exec .unpack (args (put { base with code := tableT1 } 0 [0x03, 0x0A, 0xDC]) 0 3 0x100 16))
      (fun t => t.memBytes 0x100 7 == text.take 7 && t.outLen == 7 && t.status.word == 0xA06 && t.errInfo == 11 &&
        t.payloadBits == 13) = true := by decide +kernel

/-! ### Host transactions -/

-- HT-2.
theorem test_param_word : base.readReg 0x0004 = 0x010CFF08 := by decide +kernel
-- HT-4: bits 1:0 of the offset are ignored.
theorem test_freq_write_0x585 : (base.hostWriteReg 0x0585 4).readReg 0x0584 = 4 := by decide +kernel
-- HT-5: LEN takes bits 7:0.
theorem test_len_write : (base.hostWriteReg 0x5840 0xFFFFFF03).readReg 0x5840 = 3 := by decide +kernel
-- HT-6: the reserved word +0x24 of CODE[61].
theorem test_reserved_code_word : (base.hostWriteReg 0x5864 0xFFFFFFFF).readReg 0x5864 = 0 := by decide +kernel
-- 10_state.md R46: VAL7 is the word at +0x20, bits 255:224.
theorem test_val7_write :
    (entryOf (base.hostWriteReg 0x5860 0x80000001).code 0x61).val = 0x80000001#256 <<< 224 := by decide +kernel
-- TB-1w: the LINK word of node 6, and HT-10: NODE is read-only.
theorem test_node_link_word : stateTB1.readReg 0x206C = 0x00050000 := by decide +kernel
theorem test_node_read_only : (stateTB1.hostWriteReg 0x2060 0).readReg 0x2060 = 8 := by decide +kernel
-- HT-8: DONE is cleared, ERR stays.
theorem test_status_write :
    (State.hostWriteReg { base with status := { base.status with done := true, errCode := .illegalCmd } }
      0x000C 2).readReg 0x000C = 0x104 := by decide +kernel
-- HT-11: a write while BUSY is dropped and noted.
theorem test_write_while_busy :
    ((base.issue 0).hostWriteReg 0x0018 5).srcLen = 0 ∧ ((base.issue 0).hostWriteReg 0x0018 5).readReg 0x000C = 9 := by
  decide +kernel
-- log 14.
theorem test_port_beyond_dmem : faultIs (base.transact (.wrDmem 0x1000 0)) .dmemPortAddress = true := by decide +kernel

-- P5, both orders of the FREQ write and the Core step of CLEAR_FREQ, one Host step each.
theorem test_write_after_core_step :
    nextIs (step { base with program := [.bus (.wrReg 0x0584 9)] }) (fun t => entryOf t.freq 0x61 == 9) = true := by
  decide +kernel
theorem test_write_before_core_step :
    nextIs (step { base.issue 6 with program := [.bus (.wrReg 0x0584 9)], turns := [.host] })
      (fun t => entryOf t.freq 0x61 == 0 && t.status.busyWr && t.status.busy) = true := by decide +kernel

/-! ### Reset -/

-- RS-2: PACK issued, reset before the Core step: the window is drawn, the byte after it is kept.
theorem test_reset_draws_window :
    (State.resetBlock { args (put base 0x110 [7]) 0 0 0x100 16 with
        status := { base.status with busy := true }, pending := 4 }).dmem.find 0x10F = some (Config.freeByte 15) := by
  rfl
theorem test_reset_keeps_other_bytes :
    (State.resetBlock { args (put base 0x110 [7]) 0 0 0x100 16 with
        status := { base.status with busy := true }, pending := 4 }).dmem.find 0x110 = some 7 := by decide +kernel

/-! ### Host programs and the persisted table -/

-- 30_encoding.md R114: LOADCODE 0x62, "10" begins W 5880 00000002, W 5884 00000002 and has 9 transactions (P2).
theorem test_loadcode :
    (loadCodeOps 0x62 [true, false]).take 2 = [.bus (.wrReg 0x5880 2), .bus (.wrReg 0x5884 2)] ∧
      (loadCodeOps 0x62 [true, false]).length = 9 := by decide +kernel

-- EX-7: the lines of newline and of 'a'.
theorem test_record_newline : recordLine 0x0A [true, true, false] = [0x5C, 0x6E, 0x20, 0x31, 0x31, 0x30] := by decide
theorem test_record_a : recordLine 0x61 [false, false] = [0x61, 0x20, 0x30, 0x30] := by decide

-- 46_host_interface.md R273: a TAB symbol leaves one field; a bad code; a bad symbol; a repeated symbol.
theorem test_load_tab : readLine (recordLine 0x09 [true]) = .error .fields := by decide
theorem test_load_bad_code : readLine [0x61, 0x20, 0x32] = .error .code := by decide
theorem test_load_bad_symbol : readLine [0x61, 0x62, 0x20, 0x30] = .error .symbol := by decide
theorem test_load_repeated :
    readLines [] [[0x61, 0x20, 0x30], [0x61, 0x20, 0x31]] = .error .repeated := by decide
-- 46_host_interface.md R276: an empty table has no lines.
theorem test_persist_empty : persistTable CodeTable.zero = [] := by decide +kernel

-- 30_encoding.md R112, R113 with P1's lines.
theorem test_transaction_text :
    transactionText (.wrReg 0x0018 8) = ['W', ' ', '0', '0', '1', '8', ' ', '0', '0', '0', '0', '0', '0', '0', '8'] := by
  decide +kernel
theorem test_assemble_wr :
    readStmt ['W', 'R', ' ', 'F', 'R', 'E', 'Q', '[', '0', 'x', '6', '1', ']', ',', ' ', '9', ' ', ';', 'x'] =
      .ok (some (.wr (.freq 0x61) 9)) := by decide +kernel
-- 30_encoding.md R113's names; log 20: no closing bracket, log 23: an offset in place of a name.
theorem test_register_names :
    regOfName ['N', 'O', 'D', 'E', '[', '5', '1', '0', ']', '.', 'L', 'I', 'N', 'K'] = some (.node 510 .link) ∧
      regOfName ['C', 'O', 'D', 'E', '[', '7', ']', '.', 'V', 'A', 'L', '3'] = some (.codeVal 7 3) ∧
      regOfName ['F', 'R', 'E', 'Q', '[', '5'] = none ∧ regOfName ['0', 'x', '1', '8'] = none := by
  decide +kernel
theorem test_assemble_loadcode :
    readStmt ['L', 'O', 'A', 'D', 'C', 'O', 'D', 'E', ' ', '0', 'x', '6', '2', ',', ' ', '"', '1', '0', '"'] =
      .ok (some (.loadcode 0x62 [true, false])) := by decide +kernel
theorem test_assemble_label_run :
    readStmt ['g', 'o', ':', ' ', 'R', 'U', 'N', ' ', 'P', 'A', 'C', 'K'] = .ok (some (.run .pack)) := by decide +kernel

end Sys2Proof.Tests
end

