-- ==== Sys2Proof/Tests/Witnesses.lean ====
section
/-! SUPPORT. For every statement that has hypotheses, concrete states and operands that meet them together, one for each of
its clauses, at a boundary value where the clause has a range. -/

namespace Sys2Proof.Tests

set_option Elab.async false

open Sys2Proof Sys2Proof.Machine Sys2Proof.Safety

/-- The state an outcome ends in, or `s` where it stops. -/
def after (o : Host.Outcome State Fault Refusal) (s : State) : State :=
  match o with
  | .next t => t
  | .fault _ => s
  | .refused _ => s

theorem eq_next_after {o : Host.Outcome State Fault Refusal} {s : State}
    (h : (match o with | .next _ => true | .fault _ => false | .refused _ => false) = true) : o = .next (after o s) := by
  cases o with
  | next t => rfl
  | fault f => cases h
  | refused r => cases h

/-! ### Encodings and steps -/

theorem witness_DecodeAndEncodeAreInverse :
    ∃ (i : Instr) (w : Word), i.wellFormed = true ∧ decode w = .ok i ∧ w = encode i :=
  ⟨.clearCodes, 7, by decide⟩

theorem witness_CoreTurnRunsThePendingCommand :
    (∃ (s : State) (i : Instr), (nextTurn s).1 = .core ∧ s.status.busy = true ∧ decode s.pending = .ok i) ∧
    ∃ (s : State) (i : Instr), s.turns = [] ∧ (nextTurn s).1 = .core ∧ s.status.busy = true ∧ decode s.pending = .ok i :=
  ⟨⟨base.primeWord 7, .clearCodes, rfl, rfl, by decide⟩, ⟨base.issue 0, .nop, rfl, rfl, rfl, by decide⟩⟩

theorem witness_HostTurnRunsTheNextTransaction :
    (∃ (s : State) (x : Transaction) (rest : List HostOp), (nextTurn s).1 = .host ∧ s.program = .bus x :: rest) ∧
    (∃ (s : State) (rest : List HostOp), (nextTurn s).1 = .host ∧ s.program = .wait :: rest ∧ s.status.busy = true) ∧
    (∃ (s : State) (rest : List HostOp), (nextTurn s).1 = .host ∧ s.program = .wait :: rest ∧ s.status.busy = false) ∧
    ∃ s : State, (nextTurn s).1 = .host ∧ s.program = [] :=
  ⟨⟨{ base with program := [.bus (.rdReg 0)] }, .rdReg 0, [], rfl, rfl⟩,
    ⟨{ base.issue 4 with program := [.wait], turns := [.host] }, [], rfl, rfl, rfl⟩,
    ⟨{ base with program := [.wait] }, [], rfl, rfl, rfl⟩, base, rfl, rfl⟩

theorem witness_IllegalWordCompletesWithItsError :
    base.status.busy = false ∧ List.Forall (fun w : Word => ¬ (w.extractLsb' 4 28 = 0 ∧ (w.extractLsb' 0 4).toNat ≤ 7))
      [0x00000008, 0x00000010, 0xFFFFFFFF] :=
  ⟨rfl, by decide, by decide, by decide⟩

theorem witness_OnlyACmdWriteStartsTheCore :
    ∃ s t : State, step s = .next t ∧ s.status.busy = false ∧ t.status.busy = true :=
  ⟨{ base with program := [.bus (.wrReg 0x000B 0)] }, _, rfl, rfl, rfl⟩

/-! ### Host transactions -/

theorem witness_CmdWriteIssuesTheWord :
    (0x0008 : Offset) &&& 0xFFFC = 0x0008 ∧ (0x000B : Offset) &&& 0xFFFC = 0x0008 ∧ base.status.busy = false ∧
      (base.issue 0).status.busy = true := by decide

theorem witness_WritesWhileBusyAreDropped :
    (base.issue 0).status.busy = true ∧ 0 < 2 ^ (base.issue 0).aw ∧ 0xFFF < 2 ^ (base.issue 0).aw := by decide

theorem witness_StatusWriteClearsOnlyDoneAndBusyWr :
    base.status.busy = false ∧ (0x000C : Offset) &&& 0xFFFC = 0x000C ∧ (0x000F : Offset) &&& 0xFFFC = 0x000C := by decide

theorem witness_WritableWordsReadBack : base.status.busy = false := rfl

theorem witness_WritingOneRegisterLeavesTheOthers :
    base.status.busy = false ∧ (RegName.status ≠ .cmd ∧ RegName.cmd ≠ RegName.status) ∧
      (RegName.codeVal 0xFF 7 ≠ .cmd ∧ RegName.codeVal 0xFF 6 ≠ RegName.codeVal 0xFF 7) := by decide

theorem witness_ReservedAndReadOnlyWritesAreIgnored :
    base.status.busy = false ∧ List.Forall (fun o => ∀ r, regAt o = some r → readOnlyReg r)
      [0x0000, 0x003F, 0x0040, 0x03FF, 0x0800, 0x2000, 0x3FEF, 0x3FF0, 0x4024, 0x8000] := by
  have none_ok : ∀ o : Offset, regAt o = none → ∀ r, regAt o = some r → readOnlyReg r := by
    intro o ho r hr
    rw [ho] at hr
    cases hr
  have some_ok : ∀ (o : Offset) (q : RegName), regAt o = some q → readOnlyReg q →
      ∀ r, regAt o = some r → readOnlyReg r := by
    intro o q ho hq r hr
    rw [ho] at hr
    cases hr
    exact hq
  exact ⟨rfl, some_ok _ .id (by decide +kernel) trivial, some_ok _ .root (by decide +kernel) trivial,
    none_ok _ (by decide +kernel), none_ok _ (by decide +kernel), none_ok _ (by decide +kernel),
    some_ok _ (.node 0 .wLo) (by decide +kernel) trivial, some_ok _ (.node 510 .link) (by decide +kernel) trivial,
    none_ok _ (by decide +kernel), none_ok _ (by decide +kernel), none_ok _ (by decide +kernel)⟩

theorem witness_IdleReadsReturnTheDefinedValue :
    base.status.busy = false ∧ regAt 0x0000 = some .id ∧ regAt 0x7FE3 = some (.codeVal 0xFF 7) ∧ regAt 0x0040 = none ∧
      regAt 0xFFFF = none ∧ 0xFFF < 2 ^ base.aw := by decide +kernel

theorem witness_BusyReadsOfVolatileStateAreFree :
    (base.issue 0).status.busy = true ∧ (regAt 0x0020 = some .dstCap ∧ RegName.dstCap ∈ stableRegs) ∧
      regAt 0x4024 = none ∧ StatusOk (base.issue 0) ∧ (regAt 0x0024 = some .outLen ∧ RegName.outLen ∉ stableRegs) ∧
      0xFFF < 2 ^ (base.issue 0).aw := by
  unfold StatusOk
  decide +kernel

theorem witness_DmemByteReadsBack :
    base.status.busy = false ∧ 0xFFF < 2 ^ base.aw ∧ 2 ^ base.aw ≤ 0x1000 := by decide

theorem witness_IrqFollowsDoneAndEnable :
    (StatusOk (base.issue 0) ∧ (base.issue 0).status.busy = true) ∧
      (∃ t, exec .nop { base with ie := true } = .next t) ∧ base.status.busy = false ∧ (0x00000002 : Word).getLsbD 1 = true ∧
      (0xFFFFFFFE : Word).getLsbD 0 = false ∧
      (∃ s : State, s.status.busy = false ∧ s.status.done = true ∧ (0x00000001 : Word).getLsbD 0 = true) :=
  ⟨⟨by unfold StatusOk; decide +kernel, rfl⟩, ⟨_, rfl⟩, rfl, by decide, by decide, base.complete, rfl, rfl, by decide⟩

/-! ### Reset -/

theorem witness_ResetGivesEveryRegisterItsValue :
    (∃ s : State, (nextTurn s).1 = .reset ∧ s.status.busy = true ∧ s.srcLen ≠ 0) ∧
    ∃ s : State, (nextTurn s).1 = .reset ∧ s.status.busy = false ∧ s.srcLen ≠ 0 :=
  ⟨⟨{ (args base 0 8 0 0).issue 1 with turns := [.reset] }, rfl, rfl, by decide⟩,
    ⟨{ args base 0 8 0 0 with turns := [.reset] }, rfl, rfl, by decide⟩⟩

/-- A PACK or UNPACK pending with its window at the top of DMEM, and the reset's turn. -/
def resetTurn (w : Word) : State :=
  { args base 0 0 0xFFE 5 with status := base.status.issued, pending := w, turns := [.reset] }

theorem witness_ResetDrawsOnlyThePendingWindow :
    List.Forall (fun w => (nextTurn (resetTurn w)).1 = .reset ∧ (resetTurn w).status.busy = true ∧
      ((resetTurn w).pending = 4 ∨ (resetTurn w).pending = 5) ∧ (resetTurn w).dstAddr.toNat ≤ 0xFFF ∧
      0xFFF < (resetTurn w).dstAddr.toNat + (resetTurn w).dstCap.toNat ∧ 0xFFF < 2 ^ (resetTurn w).aw) [4, 5] :=
  ⟨by decide +kernel, by decide +kernel⟩

theorem witness_PowerOnForgetsDmem : (nextTurn { put base 0 [1] with turns := [.powerOn] }).1 = .powerOn := rfl

/-! ### Commands -/

/-- A state in which every command completes: "ab" at 0, the window at 0x10, the codes "0" and "1". -/
def tableAB : CodeTable := setEntry (setEntry CodeTable.zero 0x61 ⟨1, 0⟩) 0x62 ⟨1, 1⟩

/-- "aab" in the source range, 16 bytes of destination, table tableAB. -/
def stateAB : State := args (put { base with code := tableAB } 0 [0x61, 0x61, 0x62]) 0 3 0x100 16

theorem witness_EveryCommandEndsInCompletion : ∀ i : Instr, ∃ t, exec i base = .next t := by
  intro i
  cases i <;> exact ⟨_, rfl⟩

theorem witness_RegisterCommandsKeepTheRest :
    (∃ t, exec .nop stateAB = .next t) ∧ (∃ t, exec .count stateAB = .next t) ∧
    (∃ t, exec .clearFreq stateAB = .next t) ∧ (∃ t, exec .gencodes stateTB1 = .next t) ∧
    (∃ t, exec .clearCodes stateAB = .next t) ∧ (∃ t, exec .build stateAB = .next t) :=
  ⟨⟨_, rfl⟩, exec_next_of_ne_gencodes .count (by decide) _, ⟨_, rfl⟩,
    ⟨after (exec .gencodes stateTB1) base, eq_next_after (by decide +kernel)⟩, ⟨_, rfl⟩, ⟨_, rfl⟩⟩

theorem witness_PackAndUnpackKeepTheRest :
    (∃ t, exec .pack stateAB = .next t) ∧ ∃ t, exec .unpack stateAB = .next t := ⟨⟨_, rfl⟩, ⟨_, rfl⟩⟩

theorem witness_RangeErrorsComeFirst :
    (∃ s : State, 2 ^ s.aw < s.srcAddr.toNat + s.srcLen.toNat ∧ s.srcAddr = 0x1000 ∧ s.srcLen = 1) ∧
    (∃ s : State, s.srcAddr.toNat + s.srcLen.toNat ≤ 2 ^ s.aw ∧ 2 ^ s.aw < s.dstAddr.toNat + s.dstCap.toNat) ∧
    (∃ s : State, s.srcAddr.toNat + s.srcLen.toNat ≤ 2 ^ s.aw ∧ s.dstAddr.toNat + s.dstCap.toNat ≤ 2 ^ s.aw ∧
      ¬ RangesOk s) :=
  ⟨⟨args base 0x1000 1 0 0, by decide⟩, ⟨args base 0x1000 0 0xFFE 3, by decide⟩,
    ⟨args base 0 8 7 16, by unfold RangesOk; decide⟩⟩

theorem witness_InternalErrorIsNeverReported : ∃ t, exec .pack stateAB = .next t := ⟨_, rfl⟩

theorem witness_CountReplacesFreqWithOccurrences :
    (∃ s : State, s.srcAddr.toNat + s.srcLen.toNat ≤ 2 ^ s.aw ∧ s.srcAddr = 0x1000 ∧ s.srcLen = 0) ∧
    (∃ s : State, s.srcAddr.toNat + s.srcLen.toNat ≤ 2 ^ s.aw ∧ s.srcAddr = 0 ∧ s.srcLen = 0x1000) ∧
    ∃ s : State, 2 ^ s.aw < s.srcAddr.toNat + s.srcLen.toNat ∧ s.srcAddr = 0xFFFFFFFF ∧ s.srcLen = 1 :=
  ⟨⟨args base 0x1000 0 0 0, by decide⟩, ⟨args base 0 0x1000 0 0, by decide⟩,
    ⟨args base 0xFFFFFFFF 1 0 0, by decide⟩⟩

theorem witness_CountSumsToTheSourceLength :
    ∃ t, exec .count stateAB = .next t ∧ t.status.errCode = .ok ∧ ∃ i < stateAB.srcLen.toNat,
      stateAB.memRead (stateAB.srcAddr.toNat + i) = 0x62 :=
  ⟨after (exec .count stateAB) base, eq_next_after (by decide +kernel), by decide +kernel, 2, by decide,
    by decide +kernel⟩

/-- Two symbols counted, 8 and 1. -/
def stateFreq : State := { base with freq := setEntry (setEntry FreqTable.zero 0x61 8) 0x62 1 }

theorem witness_BuildCompletesForEveryFreq : (presentSyms base.freq).length = 0 := by
  unfold presentSyms
  rw [List.filter_eq_nil_iff.mpr]
  · rfl
  · intro x _
    rw [show base.freq = FreqTable.zero from rfl, entryOf_freqZero]
    decide

theorem witness_BuildLoadsOneLeafPerSymbol :
    ∃ t, exec .build stateFreq = .next t ∧ 0 < (presentSyms stateFreq.freq).length := by
  refine ⟨_, rfl, List.length_pos_of_mem (a := 0x62) ?_⟩
  unfold presentSyms
  rw [List.mem_filter]
  refine ⟨List.mem_map_of_mem (a := 0x62) (List.mem_range.mpr (by decide)), ?_⟩
  rw [show stateFreq.freq = setEntry (setEntry FreqTable.zero 0x61 8) 0x62 1 from rfl, entryOf_setEntry_same]
  decide

theorem witness_BuildMergesTheTwoLeastKeys :
    ∃ (t : State) (k : NodeIdx), exec .build stateFreq = .next t ∧ t.leafCount.toNat ≤ k.val ∧
      k.val < 2 * t.leafCount.toNat - 1 :=
  ⟨after (exec .build stateFreq) base, 2, rfl, by decide +kernel, by decide +kernel⟩

/-! ### Trees -/

/-- NODE of vector TB-2. -/
def nodesTB2 : NodeTable :=
  ((NodeTable.zero.setEntry 0 ⟨8, true, 0x61, 0, 0⟩).setEntry 1 ⟨1, true, 0x62, 0, 0⟩).setEntry 2 ⟨9, false, 0, 1, 0⟩

/-- The state with the tree of vector TB-2. -/
def stateTB2 : State :=
  { base with
    node := nodesTB2, root := 2, leafCount := 2, nodeCount := 3, pq := [2]
    status := { base.status with treeValid := true } }

theorem nodesTB2_shape : TreeShape nodesTB2 2 2 where
  leaves_pos := by decide
  leaves_le := by decide
  root_eq := by decide
  leaf := by
    intro k hk
    obtain rfl | rfl : k = 0 ∨ k = 1 := by rw [Fin.ext_iff, Fin.ext_iff]; exact (by omega : k.val = 0 ∨ k.val = 1)
    · decide +kernel
    · decide +kernel
  syms_ascend := by
    intro j k hjk hk
    obtain ⟨rfl, rfl⟩ : j = 0 ∧ k = 1 := by
      rw [Fin.ext_iff, Fin.ext_iff]
      rw [Fin.lt_def] at hjk
      exact (by omega : j.val = 0 ∧ k.val = 1)
    decide +kernel
  internal := by
    intro k h1 h2
    obtain rfl : k = 2 := Fin.ext (by omega : k.val = 2)
    decide +kernel
  one_parent := by
    intro i hi
    refine ⟨2, ⟨by decide, by decide, ?_⟩, fun k hk => Fin.ext (by have := hk.1; have := hk.2.1; omega : k.val = 2)⟩
    obtain rfl | rfl : i = 0 ∨ i = 1 := by rw [Fin.ext_iff, Fin.ext_iff]; exact (by omega : i.val = 0 ∨ i.val = 1)
    · decide +kernel
    · decide +kernel
  root_no_parent := by
    intro k h1 h2
    obtain rfl : k = 2 := Fin.ext (by omega : k.val = 2)
    decide +kernel
  unused := by
    intro k hk
    have h0 : k ≠ 0 := by
      rintro rfl
      exact absurd hk (by decide)
    have h1 : k ≠ 1 := by
      rintro rfl
      exact absurd hk (by decide)
    have h2 : k ≠ 2 := by
      rintro rfl
      exact absurd hk (by decide)
    unfold nodesTB2
    rw [NodeTable.entry_setEntry_other _ _ h2, NodeTable.entry_setEntry_other _ _ h1,
      NodeTable.entry_setEntry_other _ _ h0, entry_nodeZero]

theorem stateTB2_treeOk : TreeOk stateTB2 := by
  refine ⟨fun _ => ⟨nodesTB2_shape, by decide, rfl⟩, fun h => ?_⟩
  exact absurd h (by decide)

theorem base_treeOk : TreeOk base := by
  refine ⟨fun h => ?_, fun _ => ⟨rfl, rfl, rfl, rfl, rfl⟩⟩
  exact absurd h (by decide)

theorem witness_GencodesWithoutBranches :
    base.status.treeValid = false ∧
      ∃ s : State, s.status.treeValid = true ∧ (s.node.entry s.root).leaf = true :=
  ⟨rfl, { base with
    node := NodeTable.zero.setEntry 0 ⟨4, true, 0x61, 0, 0⟩
    status := { base.status with treeValid := true } }, rfl, by decide +kernel⟩

theorem witness_GencodesGivesEveryLeafItsPath :
    TreeOk stateTB2 ∧ stateTB2.status.treeValid = true ∧ (stateTB2.node.entry stateTB2.root).leaf = false ∧
      PathTo stateTB2.node stateTB2.root 1 [false] ∧ (stateTB2.node.entry 1).leaf = true := by
  have hl : (stateTB2.node.entry 2).left = 1 := by decide +kernel
  refine ⟨stateTB2_treeOk, rfl, by decide +kernel, ?_, by decide +kernel⟩
  have h := PathTo.left (PathTo.root (t := stateTB2.node) (r := stateTB2.root)) (by decide +kernel)
  rw [show stateTB2.root = 2 from rfl, hl] at h
  exact h

theorem witness_GencodesTableIsPrefixFree :
    (∃ t, TreeOk stateTB2 ∧ stateTB2.status.treeValid = true ∧ exec .gencodes stateTB2 = .next t) ∧
    ∃ b t, exec .build stateFreq = .next b ∧ b.status.treeValid = true ∧ exec .gencodes b = .next t :=
  ⟨⟨after (exec .gencodes stateTB2) base, stateTB2_treeOk, rfl, eq_next_after (by decide +kernel)⟩,
    ⟨after (exec .build stateFreq) base, after (exec .gencodes (after (exec .build stateFreq) base)) base, rfl,
      by decide +kernel, eq_next_after (by decide +kernel)⟩⟩

/-! ### PACK and UNPACK -/

theorem witness_PackFramesThePayload :
    RangesOk stateAB ∧ stateAB.srcLen ≠ 0 ∧ AllCoded stateAB.code stateAB.srcBytes ∧
      textBits stateAB.code stateAB.srcBytes / 8 + 2 ≤ stateAB.dstCap.toNat := by
  unfold RangesOk AllCoded
  decide +kernel

theorem witness_PackOfNothingWritesTheMarker :
    (∃ s : State, RangesOk s ∧ s.srcLen = 0 ∧ s.dstCap = 1) ∧ ∃ s : State, RangesOk s ∧ s.srcLen = 0 ∧ s.dstCap = 0 :=
  ⟨⟨args base 0 0 0xFFF 1, by unfold RangesOk; decide⟩, ⟨args base 0 0 0x1000 0, by unfold RangesOk; decide⟩⟩

/-- "ab" with only a code for 'a' (vector BP-15). -/
def stateNoCode : State :=
  args (put { base with code := setEntry CodeTable.zero 0x61 ⟨1, 0⟩ } 0 [0x61, 0x62]) 0 2 0x100 16

theorem witness_PackReportsTheFirstSymbolWithoutCode :
    RangesOk stateNoCode ∧ 1 < stateNoCode.srcLen.toNat ∧
      (entryOf stateNoCode.code (stateNoCode.memRead (stateNoCode.srcAddr.toNat + 1))).len = 0 ∧
      ∀ j < 1, (entryOf stateNoCode.code (stateNoCode.memRead (stateNoCode.srcAddr.toNat + j))).len ≠ 0 := by
  unfold RangesOk
  decide +kernel

theorem witness_PackRefusesWhatDoesNotFit :
    ∃ s : State, RangesOk s ∧ s.srcLen ≠ 0 ∧ AllCoded s.code s.srcBytes ∧
      s.dstCap.toNat + 1 = textBits s.code s.srcBytes / 8 + 2 := by
  refine ⟨args stateAB 0 3 0x100 1, ?_⟩
  unfold RangesOk AllCoded
  decide +kernel

theorem witness_UnpackAcceptsTheEmptyMarker :
    ∃ s : State, RangesOk s ∧ s.srcLen = 1 ∧ s.memRead s.srcAddr.toNat = 0x0A := by
  refine ⟨args (put base 0xFFF [0x0A]) 0xFFF 1 0 1, ?_⟩
  unfold RangesOk
  decide +kernel

theorem witness_UnpackRefusesBadHeaders :
    (∃ s : State, RangesOk s ∧ s.srcLen = 0) ∧
    (∀ h ∈ [0x00#8, 0x09#8, 0xFF#8], ∃ s : State, RangesOk s ∧ h = s.memRead s.srcAddr.toNat ∧ s.srcLen ≠ 0 ∧
      ¬ (s.srcLen = 1 ∧ h = 0x0A) ∧ ¬ (1 ≤ h.toNat ∧ h.toNat ≤ 8)) ∧
    (∃ s : State, RangesOk s ∧ 0x0A#8 = s.memRead s.srcAddr.toNat ∧ s.srcLen = 2) ∧
    (∀ h ∈ [0x01#8, 0x08#8], ∃ s : State, RangesOk s ∧ h = s.memRead s.srcAddr.toNat ∧ s.srcLen = 1 ∧ 1 ≤ h.toNat ∧
      h.toNat ≤ 8) := by
  refine ⟨⟨args base 0 0 0 0, ?_⟩, ?_, ⟨args (put base 0 [0x0A, 0]) 0 2 0x100 8, ?_⟩, ?_⟩
  · unfold RangesOk; decide
  · intro h hh
    refine ⟨args (put base 0 [h]) 0 1 0x100 8, ?_⟩
    unfold RangesOk
    revert h
    decide +kernel
  · unfold RangesOk; decide +kernel
  · intro h hh
    refine ⟨args (put base 0 [h]) 0 1 0x100 8, ?_⟩
    unfold RangesOk
    revert h
    decide +kernel

theorem codeOf_two {x y z : Byte} {e f : CodeEntry} {c : BitString}
    (h : codeOf (setEntry (setEntry CodeTable.zero x e) y f) z = some c) :
    (z = y ∧ c = f.bits) ∨ (z = x ∧ c = e.bits) := by
  unfold codeOf at h
  by_cases hy : z = y
  · subst hy
    rw [entryOf_setEntry_same] at h
    split_ifs at h
    exact .inl ⟨rfl, (Option.some.inj h).symm⟩
  · rw [entryOf_setEntry_other _ _ hy] at h
    by_cases hx : z = x
    · subst hx
      rw [entryOf_setEntry_same] at h
      split_ifs at h
      exact .inr ⟨rfl, (Option.some.inj h).symm⟩
    · rw [entryOf_setEntry_other _ _ hx, entryOf_codeZero] at h
      cases h

/-- The stream 02 0A DC with CODE[61] = (1, 0) and CODE[62] = (1, 2), both "0" (vector BU-15). -/
def stateDup : State :=
  args (put { base with code := setEntry (setEntry CodeTable.zero 0x61 ⟨1, 0⟩) 0x62 ⟨1, 2⟩ } 0 [0x02, 0x0A, 0xDC])
    0 3 0x100 16

theorem witness_UnpackRefusesDuplicateCodes :
    RangesOk stateDup ∧ 2 ≤ stateDup.srcLen.toNat ∧ 1 ≤ (stateDup.memRead stateDup.srcAddr.toNat).toNat ∧
      (stateDup.memRead stateDup.srcAddr.toNat).toNat ≤ 8 ∧ (0x61 : Byte) < 0x62 ∧
      codeOf stateDup.code 0x61 ≠ none ∧ codeOf stateDup.code 0x61 = codeOf stateDup.code 0x62 ∧
      ∀ x' y' : Byte, x' < y' → codeOf stateDup.code x' ≠ none → codeOf stateDup.code x' = codeOf stateDup.code y' →
        (0x61 : Byte) < x' ∨ ((0x61 : Byte) = x' ∧ (0x62 : Byte) ≤ y') := by
  refine ⟨by unfold RangesOk; decide +kernel, by decide +kernel, by decide +kernel, by decide +kernel, by decide,
    by decide +kernel, by decide +kernel, ?_⟩
  intro x' y' hlt hx hxy
  obtain ⟨c, hc⟩ := Option.ne_none_iff_exists'.mp hx
  have hy : codeOf stateDup.code y' = some c := hxy ▸ hc
  rcases codeOf_two hc with ⟨rfl, -⟩ | ⟨rfl, -⟩
  · exact .inl (by decide)
  · rcases codeOf_two hy with ⟨rfl, -⟩ | ⟨rfl, -⟩
    · exact .inr ⟨rfl, by decide⟩
    · exact absurd hlt (by decide)

theorem tableAB_prefixFree : PrefixFree tableAB := by
  intro x y cx cy hx hy hne hpre
  rcases codeOf_two hx with ⟨rfl, rfl⟩ | ⟨rfl, rfl⟩ <;> rcases codeOf_two hy with ⟨rfl, rfl⟩ | ⟨rfl, rfl⟩
  · exact hne rfl
  · revert hpre; decide +kernel
  · revert hpre; decide +kernel
  · exact hne rfl

theorem tableAB_distinct : DistinctCodes tableAB := by
  intro x y hne hxy
  cases hx : codeOf tableAB x with
  | none => rfl
  | some c =>
    exact absurd (List.prefix_refl c) (tableAB_prefixFree x y c c hx (hxy ▸ hx) hne)

/-- The stream 05 20 of "aab" with tableAB. -/
def stateStream : State := args (put { base with code := tableAB } 0 [0x05, 0x20]) 0 2 0x100 3

theorem witness_UnpackDecodesAFramedText :
    RangesOk stateStream ∧ PrefixFree stateStream.code ∧ AllCoded stateStream.code [0x61, 0x61, 0x62] ∧
      bytesBits stateStream.srcBytes =
        msbBits (List.length [false, false, false, false, false]) 8 ++ textCode stateStream.code [0x61, 0x61, 0x62] ++
          [false, false, false, false, false] ∧
      [0x61, 0x61, 0x62].length ≤ stateStream.dstCap.toNat := by
  refine ⟨by unfold RangesOk; decide +kernel, tableAB_prefixFree, by unfold AllCoded; decide +kernel,
    by decide +kernel, by decide +kernel⟩

/-- `stateAB` after PACK. -/
def packedAB : State := after (exec .pack stateAB) base

theorem witness_UnpackInvertsPack :
    ∃ u : State, exec .pack stateAB = .next packedAB ∧ packedAB.status.errCode = .ok ∧ PrefixFree stateAB.code ∧
      u.code = packedAB.code ∧ u.dmem = packedAB.dmem ∧ u.powerOns = packedAB.powerOns ∧
      u.awOver8 = packedAB.awOver8 ∧ u.srcAddr = packedAB.dstAddr ∧ u.srcLen = packedAB.outLen ∧ RangesOk u ∧
      stateAB.srcLen.toNat = u.dstCap.toNat := by
  refine ⟨{ packedAB with srcAddr := packedAB.dstAddr, srcLen := packedAB.outLen, dstAddr := 0x200, dstCap := 3 },
    rfl, by decide +kernel, tableAB_prefixFree, rfl, rfl, rfl, rfl, rfl, rfl, ?_, by decide +kernel⟩
  unfold RangesOk
  decide +kernel

theorem witness_UnpackWritesTheDecodedPrefix :
    RangesOk stateStream ∧ 2 ≤ stateStream.srcLen.toNat ∧ 5 = (stateStream.memRead stateStream.srcAddr.toNat).toNat ∧
      DistinctCodes stateStream.code ∧ ∃ t, exec .unpack stateStream = .next t :=
  ⟨by unfold RangesOk; decide +kernel, by decide, by decide +kernel, tableAB_distinct, _, rfl⟩

/-! ### Whole-machine rules -/

theorem witness_EveryStepKeepsDmemInsideItsBounds :
    ∃ s t : State, DmemOk s ∧ step s = .next t ∧ s.dmem ≠ [] := by
  refine ⟨{ put base 0xFFF [1] with program := [.bus (.wrDmem 0 2)] }, _, ?_, rfl, by decide⟩
  unfold DmemOk
  decide +kernel

theorem witness_EveryStepKeepsTheTreeShape : ∃ t, TreeOk (stateTB2.primeWord 3) ∧ step (stateTB2.primeWord 3) = .next t :=
  ⟨after (step (stateTB2.primeWord 3)) base, stateTB2_treeOk, eq_next_after (by decide +kernel)⟩

theorem witness_EveryStepKeepsTheRegisterRelations :
    ∃ s t : State, step s = .next t ∧ StatusOk s ∧ ResultsOk s ∧ s.status.busy = true := by
  refine ⟨base.issue 5, _, rfl, ?_, ?_, rfl⟩
  · unfold StatusOk; decide
  · unfold ResultsOk; decide

theorem witness_NoStepStopsTheMachine :
    ∃ s : State, TreeOk s ∧ ProgramOk s ∧ s.program = [.bus (.wrDmem 0xFFF 1)] := by
  refine ⟨{ base with program := [.bus (.wrDmem 0xFFF 1)] }, base_treeOk, ?_, rfl⟩
  unfold ProgramOk
  decide

theorem witness_IdentityRegistersNeverChange : ∃ t, step (base.issue 7) = .next t := ⟨_, rfl⟩

theorem witness_OnlyBuildAndResetChangeTheTree :
    ∃ t, step (base.issue 7) = .next t ∧ (nextTurn (base.issue 7)).1 ≠ .reset ∧
      (nextTurn (base.issue 7)).1 ≠ .powerOn ∧
      ¬ ((nextTurn (base.issue 7)).1 = .core ∧ (base.issue 7).status.busy = true ∧ (base.issue 7).pending = 2) :=
  ⟨_, rfl, by decide, by decide, by decide⟩

theorem witness_ArgumentsStayStableWhileBusy :
    (∃ t, exec .pack stateAB = .next t) ∧
    ∃ s t : State, step s = .next t ∧ s.status.busy = true ∧ (nextTurn s).1 ≠ .reset ∧ (nextTurn s).1 ≠ .powerOn :=
  ⟨⟨_, rfl⟩, { base.issue 4 with turns := [.host], program := [.bus (.wrReg 0x0018 5)] }, _, rfl, rfl, by decide,
    by decide⟩

theorem witness_TablesAreReadOnlyByTheirUnits :
    (∃ t, exec .pack stateAB = .next t) ∧ (∃ t, exec .count stateAB = .next t ∧ t.status.errCode = .ok) ∧
      (∃ t, exec .build stateAB = .next t) ∧ ∃ t, exec .gencodes stateTB1 = .next t :=
  ⟨⟨_, rfl⟩, ⟨after (exec .count stateAB) base, eq_next_after (by decide +kernel), by decide +kernel⟩, ⟨_, rfl⟩,
    ⟨after (exec .gencodes stateTB1) base, eq_next_after (by decide +kernel)⟩⟩

theorem witness_WaitEndsAfterTheCoreStep :
    ∃ s : State, TreeOk s ∧ s.status.busy = true ∧ s.turns = [] ∧ s.program = .wait :: [] :=
  ⟨{ base.issue 3 with program := [.wait] }, base_treeOk, rfl, rfl, rfl⟩

theorem witness_PersistedRecordReadsBack :
    Persistable 0x0A ∧ Persistable 0x20 ∧ Persistable 0x5C ∧ Persistable 0x7F ∧ codeWellFormed [true] = true ∧
      codeWellFormed (List.replicate 255 false) = true := by
  unfold Persistable
  decide +kernel

theorem witness_PersistedTableReloads : ∀ x, (entryOf tableAB x).len ≠ 0 → Persistable x := by
  intro x hx
  have h : codeOf tableAB x = some (entryOf tableAB x).bits := if_neg hx
  unfold Persistable
  rcases codeOf_two h with ⟨rfl, -⟩ | ⟨rfl, -⟩ <;> decide +kernel

theorem witness_LoadcodeStoresTheCode :
    ∀ c ∈ [[true], List.replicate 255 true], ∃ s : State, codeWellFormed c = true ∧ s.status.busy = false ∧ s.turns = [] ∧
      s.program = loadCodeOps 0x61 c ++ [.wait] := by
  intro c hc
  refine ⟨{ base with program := loadCodeOps 0x61 c ++ [.wait] }, ?_, rfl, rfl, rfl⟩
  revert c
  decide +kernel

end Sys2Proof.Tests
end

section
/-! PROOFS. Bit strings: the value of a bit string and `msbBits` are inverse to each other (00_scope.md R10, R11), and the
code that an entry holds is pinned by its length and value (R14, 10_state.md R47). -/

namespace Sys2Proof.Machine

@[simp] theorem bitsVal_nil : bitsVal [] = 0 := rfl

@[simp] theorem bitsVal_append_singleton (c : BitString) (b : Bool) :
    bitsVal (c ++ [b]) = 2 * bitsVal c + b.toNat := by
  simp [bitsVal]

/-- The last bit of `msbBits v (n + 1)` is the least significant bit of `v`, and the bits before it are those of `v / 2`. -/
theorem msbBits_succ (v n : Nat) : msbBits v (n + 1) = msbBits (v / 2) n ++ [v.testBit 0] := by
  have hbit : ∀ i ∈ List.range n, v.testBit (n + 1 - 1 - i) = (v / 2).testBit (n - 1 - i) := by
    intro i hi
    have hlt : i < n := List.mem_range.mp hi
    rw [← Nat.testBit_add_one]
    congr 1
    omega
  simp only [msbBits, List.range_succ, List.map_append, List.map_cons, List.map_nil, List.map_congr_left hbit]
  simp

/-- Reading back the `n` bits of `v` gives `v` modulo `2 ^ n` (00_scope.md R11). -/
@[simp] theorem bitsVal_msbBits (v n : Nat) : bitsVal (msbBits v n) = v % 2 ^ n := by
  induction n generalizing v with
  | zero => simp [msbBits, Nat.mod_one]
  | succ n ih =>
    rw [msbBits_succ, bitsVal_append_singleton, ih, Nat.toNat_testBit, Nat.pow_succ', Nat.mod_mul]
    omega

/-- Every bit string is the `msbBits` of its value at its length (00_scope.md R11). -/
@[simp] theorem msbBits_bitsVal (c : BitString) : msbBits (bitsVal c) c.length = c := by
  induction c using List.reverseRecOn with
  | nil => rfl
  | append_singleton c b ih =>
    have hdiv : (2 * bitsVal c + b.toNat) / 2 = bitsVal c := by
      have := b.toNat_lt
      omega
    have hbit : (2 * bitsVal c + b.toNat).testBit 0 = b := by
      cases b <;> simp [Nat.testBit_zero]
    rw [bitsVal_append_singleton, List.length_append, List.length_singleton, msbBits_succ, hdiv, hbit, ih]

/-- A bit string is determined by its length and its value. -/
theorem eq_of_length_eq_of_bitsVal_eq {c d : BitString} (hlen : c.length = d.length) (hval : bitsVal c = bitsVal d) :
    c = d := by
  rw [← msbBits_bitsVal c, hlen, hval, msbBits_bitsVal]

theorem msbBits_eq_iff (v n : Nat) (c : BitString) : msbBits v n = c ↔ c.length = n ∧ bitsVal c = v % 2 ^ n := by
  constructor
  · rintro rfl
    exact ⟨length_msbBits v n, bitsVal_msbBits v n⟩
  · rintro ⟨hlen, hval⟩
    exact eq_of_length_eq_of_bitsVal_eq (by rw [length_msbBits, hlen]) (by rw [bitsVal_msbBits, hval])

theorem byteBits_eq_iff (b : Byte) (c : BitString) : byteBits b = c ↔ c.length = 8 ∧ bitsVal c = b.toNat := by
  rw [byteBits, msbBits_eq_iff, Nat.mod_eq_of_lt b.isLt]

theorem bytesBits_append (bs bs' : List Byte) : bytesBits (bs ++ bs') = bytesBits bs ++ bytesBits bs' :=
  List.flatMap_append

@[simp] theorem bytesBits_singleton (b : Byte) : bytesBits [b] = byteBits b := List.flatMap_singleton _ _

theorem CodeEntry.bits_eq_iff (e : CodeEntry) (c : BitString) :
    e.bits = c ↔ c.length = e.len.toNat ∧ bitsVal c = e.val.toNat % 2 ^ e.len.toNat :=
  msbBits_eq_iff _ _ c

theorem codeOf_eq_some_iff (t : CodeTable) (x : Byte) (c : BitString) :
    codeOf t x = some c ↔ (entryOf t x).len ≠ 0 ∧ (entryOf t x).bits = c := by
  simp [codeOf]

/-- Settles O60: `bitsVal` and `msbBits` are inverse, so a byte's bits and an entry's code are pinned by length and value. -/
theorem bitStringsReadMostSignificantFirst : Obligations.BitStringsReadMostSignificantFirst := by
  refine ⟨bitsVal_nil, bitsVal_append_singleton, fun v n => ⟨length_msbBits v n, bitsVal_msbBits v n⟩, byteBits_eq_iff,
    bytesBits_append, bytesBits_singleton, fun t x c => ?_⟩
  rw [codeOf_eq_some_iff, CodeEntry.bits_eq_iff]
  refine and_congr_right fun _ => and_congr_right fun hlen => ?_
  rw [hlen]

end Sys2Proof.Machine
end

section
/-! PROOFS. What a step can do, said once: the completion of every command as a case of one relation, and every move of
the block as a case of another. -/

namespace Sys2Proof.Machine

/-! ### Commands -/

/-- The scan of the source's payload under header `h`, as UNPACK runs it (45_bit_unpacker.md R241). -/
def State.scanSource (s : State) (h : Nat) : ScanWork × Option (ErrCode × Nat) :=
  scan (codeList s.code) s.dstAddr.toNat s.dstCap.toNat (payloadOf s.srcBytes h) 0
    { dmem := s.dmem, cand := [], start := 0, out := 0 }

/-- Every way a command can complete: command `i` takes the block from `s` to `u.raise e info`. PACK and UNPACK clear
the result registers first; `packRefused` and `unpackRefused` are their errors before any output (44_bit_packer.md R219,
45_bit_unpacker.md R253). -/
inductive Completes (s : State) : Instr → State → ErrCode → Word → Prop where
  | nop : Completes s .nop s .ok 0
  | countRefused (hin : s.srcInDmem = false) : Completes s .count s .bounds 0
  | count (hin : s.srcInDmem = true) :
      Completes s .count { s with freq := freqOfCounts (countBytes s.srcBytes) } .ok 0
  | build : Completes s .build (s.setTree (buildTree s.freq) (leafNodes s.freq).length) .ok 0
  | gencodesEmpty (hv : s.status.treeValid = false) : Completes s .gencodes { s with code := CodeTable.zero } .ok 0
  | gencodes {c : CodeTable} (hv : s.status.treeValid = true) (hc : codesOfTree s.node s.root = some c) :
      Completes s .gencodes { s with code := c } .ok 0
  | packRefused {e : ErrCode} {info : Word} (hok : e ≠ .ok) (hint : e ≠ .internal) :
      Completes s .pack s.clearResults e info
  | packMarker (hr : s.rangeError = none) (hcap : ¬ s.dstCap < 1) :
      Completes s .pack
        { s.clearResults with dmem := s.dmem.write s.dstAddr.toNat Config.emptyMarker, outLen := 1 } .ok 0
  | packStream {l : Nat} (hr : s.rangeError = none) (hl : payloadLength s.code s.srcBytes 0 = .ok l)
      (hcap : packedLength l ≤ s.dstCap.toNat) :
      Completes s .pack (s.clearResults.putStream s.srcBytes l) .ok 0
  | unpackRefused {e : ErrCode} {info : Word} (hok : e ≠ .ok) (hint : e ≠ .internal) :
      Completes s .unpack s.clearResults e info
  | unpackMarker : Completes s .unpack s.clearResults .ok 0
  | unpackScan {h : Nat} {w : ScanWork} {e : ErrCode} {info : Word} (hr : s.rangeError = none) (hh : h ≤ 8)
      (hw : w = (s.scanSource h).1) (hout : w.out ≤ s.dstCap.toNat) (hint : e ≠ .internal)
      (hinfo : e = .ok → info = 0) :
      Completes s .unpack (s.clearResults.putScan w h (8 * (s.srcLen.toNat - 1) - h)) e info
  | clearFreq : Completes s .clearFreq { s with freq := FreqTable.zero } .ok 0
  | clearCodes : Completes s .clearCodes { s with code := CodeTable.zero } .ok 0

/-- State `t` is a completion of command `i` from state `s`. -/
def CompletesTo (s : State) (i : Instr) (t : State) : Prop := ∃ u e info, Completes s i u e info ∧ t = u.raise e info

theorem Completes.completesTo {s u : State} {i : Instr} {e : ErrCode} {info : Word} (h : Completes s i u e info) :
    CompletesTo s i (u.raise e info) := ⟨u, e, info, h, rfl⟩

/-- The range checks read the argument registers and AW only. -/
@[simp] theorem rangeError_clearResults (s : State) : s.clearResults.rangeError = s.rangeError := rfl

@[simp] theorem srcBytes_clearResults (s : State) : s.clearResults.srcBytes = s.srcBytes := rfl

theorem rangeError_ne_ok {s : State} {e : ErrCode} {info : Word} (h : s.rangeError = some (e, info)) :
    e ≠ .ok ∧ e ≠ .internal := by
  rcases rangeError_code h with rfl | rfl <;> decide

/-- PACK's frame is a whole number of bytes, so E_INTERNAL is never raised (44_bit_packer.md R220). -/
theorem frame_mod_eight (l : Nat) : (8 + l + padOf l) % 8 = 0 := by
  unfold padOf
  omega

theorem packEmpty_completes {s : State} (hr : s.rangeError = none) :
    CompletesTo s .pack (packEmpty s.clearResults) := by
  unfold packEmpty
  split_ifs with hcap
  · exact (Completes.packRefused (by decide) (by decide)).completesTo
  · exact (Completes.packMarker hr hcap).completesTo

theorem packText_completes {s : State} (hr : s.rangeError = none) :
    CompletesTo s .pack (packText s.clearResults s.srcBytes) := by
  unfold packText
  rw [State.clearResults_code]
  cases hl : payloadLength s.code s.srcBytes 0 with
  | error j => exact (Completes.packRefused (by decide) (by decide)).completesTo
  | ok l =>
    simp only [frame_mod_eight, ne_eq, not_true_eq_false, if_false]
    split_ifs with hcap
    · exact (Completes.packRefused (by decide) (by decide)).completesTo
    · exact (Completes.packStream hr hl (Nat.not_lt.mp hcap)).completesTo

theorem packCleared_completes (s : State) : CompletesTo s .pack (packCleared s.clearResults) := by
  unfold packCleared
  rw [rangeError_clearResults]
  cases hr : s.rangeError with
  | some p =>
    obtain ⟨hok, hint⟩ := rangeError_ne_ok hr
    exact (Completes.packRefused hok hint).completesTo
  | none =>
    dsimp only
    split_ifs
    · exact packEmpty_completes hr
    · exact packText_completes hr

/-- The scan ends with no more bytes written than fit (45_bit_unpacker.md R249), and its error is a real one. -/
theorem scan_bounds (codes : List (Byte × BitString)) (dst cap : Nat) (bits : BitString) (q : Nat) (w : ScanWork)
    (hw : w.out ≤ cap) :
    (scan codes dst cap bits q w).1.out ≤ cap ∧
      ∀ e n, (scan codes dst cap bits q w).2 = some (e, n) → e ≠ .ok ∧ e ≠ .internal := by
  induction bits generalizing q w with
  | nil =>
    refine ⟨hw, fun e n h => ?_⟩
    simp only [scan] at h
    split_ifs at h
    cases h
    decide
  | cons b bits ih =>
    unfold scan
    cases matchCode codes (w.cand ++ [b]) with
    | some sym =>
      dsimp only
      split_ifs with hfull
      · exact ⟨hw, by rintro e n ⟨⟩; decide⟩
      · exact ih (q + 1) _ (by dsimp only; omega)
    | none =>
      dsimp only
      split_ifs
      · exact ⟨hw, by rintro e n ⟨⟩; decide⟩
      · exact ih (q + 1) _ hw

theorem unpackPayload_completes {s : State} (hr : s.rangeError = none) {h : Nat} (hh : h ≤ 8) :
    CompletesTo s .unpack (unpackPayload s.clearResults (codeList s.code) s.srcBytes h) := by
  obtain ⟨hout, herr⟩ := scan_bounds (codeList s.code) s.dstAddr.toNat s.dstCap.toNat (payloadOf s.srcBytes h) 0
    { dmem := s.dmem, cand := [], start := 0, out := 0 } (Nat.zero_le _)
  unfold unpackPayload
  rw [srcBytes_length]
  dsimp only
  split
  · exact (Completes.unpackScan hr hh rfl hout (by decide) fun _ => rfl).completesTo
  next e info he =>
    obtain ⟨hok, hint⟩ := herr e info he
    exact (Completes.unpackScan hr hh rfl hout hint fun hc => absurd hc hok).completesTo

theorem unpackStream_completes {s : State} (hr : s.rangeError = none) (h : Byte) :
    CompletesTo s .unpack (unpackStream s.clearResults s.srcBytes h) := by
  unfold unpackStream
  split_ifs with hmark hrange hpad
  · exact Completes.unpackMarker.completesTo
  · exact (Completes.unpackRefused (by decide) (by decide)).completesTo
  · exact (Completes.unpackRefused (by decide) (by decide)).completesTo
  · split
    · exact (Completes.unpackRefused (by decide) (by decide)).completesTo
    · exact unpackPayload_completes hr (by omega)

theorem unpackCleared_completes (s : State) : CompletesTo s .unpack (unpackCleared s.clearResults) := by
  unfold unpackCleared
  rw [rangeError_clearResults, srcBytes_clearResults]
  cases hr : s.rangeError with
  | some p =>
    obtain ⟨hok, hint⟩ := rangeError_ne_ok hr
    exact (Completes.unpackRefused hok hint).completesTo
  | none =>
    cases hbs : s.srcBytes with
    | nil => exact (Completes.unpackRefused (by decide) (by decide)).completesTo
    | cons h bs =>
      have hstream := unpackStream_completes hr h
      rw [hbs] at hstream
      exact hstream

/-- Every command that ends in a next state completed in one of the ways of `Completes`. -/
theorem exec_completes {i : Instr} {s t : State} (h : exec i s = .next t) : CompletesTo s i t := by
  cases i with
  | nop => cases h; exact Completes.nop.completesTo
  | count =>
    cases hin : s.srcInDmem with
    | false =>
      simp only [exec, execCount, hin] at h
      cases h
      exact (Completes.countRefused hin).completesTo
    | true =>
      simp only [exec, execCount, hin] at h
      cases h
      exact (Completes.count hin).completesTo
  | build => cases h; exact Completes.build.completesTo
  | gencodes =>
    simp only [exec, execGencodes] at h
    split at h
    next hv =>
      split at h <;> cases h
      next c hc => exact (Completes.gencodes hv hc).completesTo
    next hv =>
      cases h
      exact (Completes.gencodesEmpty (Bool.eq_false_of_not_eq_true hv)).completesTo
  | pack => cases h; exact packCleared_completes s
  | unpack => cases h; exact unpackCleared_completes s
  | clearFreq => cases h; exact Completes.clearFreq.completesTo
  | clearCodes => cases h; exact Completes.clearCodes.completesTo

/-! ### Steps -/

/-- The state with the fields of the Host and the environment replaced: the turns, the Host's program and record, and
the count of draws. -/
def State.withEnv (s : State) (ts : List Turn) (ops : List HostOp) (obs : List Observation) (k : Nat) : State :=
  { s with turns := ts, program := ops, observed := obs, draws := k }

/-- Every move of the block at a turn, the environment's own fields being those of `s`. -/
inductive Moves (s : State) : Turn → State → Prop where
  | hostStays : Moves s .host s
  | coreIdle (hb : s.status.busy = false) : Moves s .core s
  | dropWrite (hb : s.status.busy = true) : Moves s .host s.dropWrite
  | putReg (hb : s.status.busy = false) (r : RegName) (v : Word) : Moves s .host (s.putReg r v)
  | putDmem (hb : s.status.busy = false) {a : Nat} (ha : a < 2 ^ s.aw) (b : Byte) :
      Moves s .host { s with dmem := s.dmem.write a b }
  | exec (hb : s.status.busy = true) {i : Instr} {t : State} (hd : decode s.pending = .ok i) (ht : CompletesTo s i t) :
      Moves s .core t
  | illegal (hb : s.status.busy = true) {r : Reject} (hd : decode s.pending = .error r) :
      Moves s .core (s.raise .illegalCmd s.pending)
  | reset : Moves s .reset s.resetBlock
  | powerOn : Moves s .powerOn s.powerOn

/-- State `t` is a move of the block from `s`, whatever the environment's fields become. -/
def MovesTo (s : State) (x : Turn) (t : State) : Prop := ∃ ts ops obs k, Moves (s.withEnv ts ops obs k) x t

theorem hostWriteReg_moves (s : State) (o : Offset) (v : Word) : Moves s .host (s.hostWriteReg o v) := by
  obtain ⟨hb, h⟩ | ⟨-, -, h⟩ | ⟨hb, r, -, h⟩ := hostWriteReg_cases s o v <;> rw [h]
  · exact .dropWrite hb
  · exact .hostStays
  · exact .putReg hb r v

theorem hostWriteDmem_moves {s : State} {a : Nat} (ha : a < 2 ^ s.aw) (b : Byte) :
    Moves s .host (s.hostWriteDmem a b) := by
  unfold State.hostWriteDmem
  split
  next hb => exact .dropWrite hb
  next hb => exact .putDmem (Bool.eq_false_of_not_eq_true hb) ha b

theorem hostStep_moves {s t : State} (h : hostStep s = .next t) : MovesTo s .host t := by
  obtain ⟨-, hs⟩ | ⟨x, rest, -, hs⟩ | ⟨rest, -, -, hs⟩ | ⟨rest, -, -, hs⟩ := hostStep_eq s
  · cases hs.symm.trans h
    exact ⟨s.turns, s.program, s.observed, s.draws, .hostStays⟩
  · obtain ⟨o, v, -, rfl⟩ | ⟨o, -, rfl⟩ | ⟨a, b, -, ha, rfl⟩ | ⟨a, -, -, rfl⟩ := transact_cases (hs.symm.trans h)
    · exact ⟨s.turns, rest, s.observed, s.draws, hostWriteReg_moves _ o v⟩
    · exact ⟨s.turns, rest, _, _, .hostStays⟩
    · exact ⟨s.turns, rest, s.observed, s.draws, hostWriteDmem_moves ha b⟩
    · exact ⟨s.turns, rest, _, _, .hostStays⟩
  · cases hs.symm.trans h
    exact ⟨s.turns, s.program, _, s.draws, .hostStays⟩
  · cases hs.symm.trans h
    exact ⟨s.turns, rest, _, s.draws, .hostStays⟩

theorem coreStep_moves {s t : State} (h : coreStep s = .next t) : Moves s .core t := by
  obtain ⟨hb, rfl⟩ | ⟨hb, i, hd, hi⟩ | ⟨hb, r, hd, rfl⟩ := coreStep_cases h
  · exact .coreIdle hb
  · exact .exec hb hd (exec_completes hi)
  · exact .illegal hb hd

/-- Every step that ends in a next state is one of the moves of `Moves`. -/
theorem step_moves {s t : State} (h : step s = .next t) : MovesTo s (nextTurn s).1 t := by
  unfold step at h
  obtain ⟨hx, h⟩ | ⟨hx, h⟩ | ⟨hx, rfl⟩ | ⟨hx, rfl⟩ := takeTurn_cases h <;> rw [hx]
  · obtain ⟨ts, ops, obs, k, hm⟩ := hostStep_moves h
    exact ⟨ts, ops, obs, k, hm⟩
  · exact ⟨_, s.program, s.observed, s.draws, coreStep_moves h⟩
  · exact ⟨_, s.program, s.observed, s.draws, .reset⟩
  · exact ⟨_, s.program, s.observed, s.draws, .powerOn⟩

end Sys2Proof.Machine
end

section
/-! PROOFS. BUILD: the leaves it loads, and the invariant of its loop (42_tree_builder.md R162 to R170; 10_state.md
R44). -/

namespace Sys2Proof.Machine

open Sys2Proof.Safety

/-! ### Leaves -/

/-- The counts as BUILD goes through them, by symbol. -/
theorem freq_zipIdx (freq : FreqTable) :
    freq.toList.zipIdx = (List.range 256).map fun i => (entryOf freq (byteOf i), i) := by
  refine List.ext_getElem (by simp) fun i h _ => ?_
  have hi : i < 256 := by simpa using h
  simp [entryOf, byteOf, Vector.get_eq_getElem, Nat.mod_eq_of_lt hi]

/-- BUILD's leaves are those of the symbols present, in ascending order (42_tree_builder.md R162). -/
theorem leafNodes_eq_map (freq : FreqTable) :
    leafNodes freq = (presentSyms freq).map fun x => leafNode (entryOf freq x) x := by
  unfold leafNodes presentSyms
  rw [freq_zipIdx, List.filterMap_map]
  induction List.range 256 with
  | nil => rfl
  | cons i is ih =>
    rw [List.filterMap_cons, List.map_cons, List.filter_cons, ih]
    by_cases h : entryOf freq (byteOf i) = 0
    · simp [h]
    · simp only [Function.comp_apply, h, ne_eq, not_false_eq_true, decide_true, if_true, if_false, List.map_cons]

@[simp] theorem mem_presentSyms (freq : FreqTable) (x : Byte) : x ∈ presentSyms freq ↔ entryOf freq x ≠ 0 := by
  have hx : byteOf x.toNat = x := BitVec.eq_of_toNat_eq (Nat.mod_eq_of_lt x.isLt)
  simp only [presentSyms, List.mem_filter, List.mem_map, List.mem_range, decide_eq_true_eq, and_iff_right_iff_imp]
  exact fun _ => ⟨x.toNat, x.isLt, hx⟩

theorem presentSyms_length_le (freq : FreqTable) : (presentSyms freq).length ≤ 256 :=
  (List.length_filter_le _ _).trans (by simp)

theorem presentSyms_ascending (freq : FreqTable) : (presentSyms freq).Pairwise (· < ·) := by
  refine List.Pairwise.filter _ (List.pairwise_map.mpr ?_)
  refine List.pairwise_lt_range.imp_of_mem fun {i j} hi hj hij => ?_
  have hi := List.mem_range.mp hi
  have hj := List.mem_range.mp hj
  simpa [byteOf, BitVec.lt_def, Nat.mod_eq_of_lt hi, Nat.mod_eq_of_lt hj] using hij

theorem leafNodes_length_le (freq : FreqTable) : (leafNodes freq).length ≤ 256 := by
  rw [leafNodes_eq_map, List.length_map]
  exact presentSyms_length_le freq

theorem leafNodes_ascending (freq : FreqTable) : (leafNodes freq).Pairwise fun a b => a.sym < b.sym := by
  rw [leafNodes_eq_map]
  exact List.pairwise_map.mpr (presentSyms_ascending freq)

/-- A leaf of a positive count below 2^32, as BUILD loads it (10_state.md R44 (b)). -/
def IsLeaf (nd : Node) : Prop :=
  nd.leaf = true ∧ nd.left = 0 ∧ nd.right = 0 ∧ 0 < nd.w.toNat ∧ nd.w.toNat < 2 ^ 32

theorem leafNode_isLeaf {c : Word} (hc : c ≠ 0) (x : Byte) : IsLeaf (leafNode c x) := by
  have hpos : 0 < c.toNat := Nat.pos_of_ne_zero fun h => hc (BitVec.eq_of_toNat_eq h)
  have hw : (leafNode c x).w.toNat = c.toNat := by
    simp only [leafNode, BitVec.toNat_setWidth]
    omega
  exact ⟨rfl, rfl, rfl, hw ▸ hpos, hw ▸ c.isLt⟩

theorem leafNodes_isLeaf {freq : FreqTable} {nd : Node} (h : nd ∈ leafNodes freq) : IsLeaf nd := by
  rw [leafNodes_eq_map] at h
  obtain ⟨x, hx, rfl⟩ := List.mem_map.mp h
  exact leafNode_isLeaf ((mem_presentSyms freq x).mp hx) x

/-- NODE after a run of entries was stored from index `j` on. -/
theorem entry_foldl_setEntry (ls : List Node) (t : NodeTable) {j : Nat} (hj : j + ls.length ≤ 511) (k : NodeIdx) :
    ((ls.zipIdx j).foldl (fun t (nd, k) => NodeTable.setEntry t (Fin.ofNat 511 k) nd) t).entry k =
      if j ≤ k.val then ls[k.val - j]?.getD (t.entry k) else t.entry k := by
  induction ls generalizing t j with
  | nil => simp
  | cons nd ls ih =>
    rw [List.length_cons] at hj
    rw [List.zipIdx_cons, List.foldl_cons, ih _ (by omega)]
    have hjval : (Fin.ofNat 511 j).val = j := Nat.mod_eq_of_lt (by omega)
    by_cases hkj : k = Fin.ofNat 511 j
    · have hk : k.val = j := by rw [hkj, hjval]
      rw [if_neg (by omega), if_pos (by omega), hkj, NodeTable.entry_setEntry_same, hjval]
      simp
    · have hne : k.val ≠ j := fun h => hkj (Fin.ext (h.trans hjval.symm))
      rw [NodeTable.entry_setEntry_other _ _ hkj]
      by_cases hle : j + 1 ≤ k.val
      · rw [if_pos hle, if_pos (by omega), show k.val - j = (k.val - (j + 1)) + 1 by omega, List.getElem?_cons_succ]
      · rw [if_neg hle, if_neg (by omega)]

/-- NODE after the leaf loader: leaf k at index k, every other entry unused (42_tree_builder.md R161, R162). -/
theorem entry_loadLeaves {ls : List Node} (hls : ls.length ≤ 511) (k : NodeIdx) :
    (loadLeaves ls).entry k = ls[k.val]?.getD Node.zero := by
  unfold loadLeaves
  rw [entry_foldl_setEntry ls _ (by omega), if_pos (Nat.zero_le _), Nat.sub_zero, entry_nodeZero]

/-! ### The queue -/

theorem leastKey_mem (t : NodeTable) (k : NodeIdx) (ks : List NodeIdx) : leastKey t k ks ∈ k :: ks := by
  unfold leastKey
  induction ks generalizing k with
  | nil => simp
  | cons j ks ih =>
    rw [List.foldl_cons]
    split_ifs
    · exact List.mem_cons_of_mem _ (ih j)
    · rcases List.mem_cons.mp (ih k) with h | h
      · rw [h]
        exact List.mem_cons_self
      · exact List.mem_cons_of_mem _ (List.mem_cons_of_mem _ h)

/-- EXTRACT_MIN takes one index out of the queue (42_tree_builder.md R165). -/
theorem extractMin_perm {t : NodeTable} {pq pq' : List NodeIdx} {k : NodeIdx}
    (h : extractMin t pq = some (k, pq')) : pq.Perm (k :: pq') := by
  cases pq with
  | nil => cases h
  | cons j js =>
    cases h
    exact List.perm_cons_erase (leastKey_mem t j js)

theorem extractMin_eq_none_iff (t : NodeTable) (pq : List NodeIdx) : extractMin t pq = none ↔ pq = [] := by
  cases pq <;> simp [extractMin]

theorem insertKey_of_not_mem {pq : List NodeIdx} {k : NodeIdx} (h : k ∉ pq) : insertKey pq k = pq ++ [k] := if_neg h

/-- A pass of BUILD's loop takes two indices out of the queue and merges them (42_tree_builder.md R170). -/
theorem mergeOnce_eq_some {tb tb' : TreeWork} (h : mergeOnce tb = some tb') :
    ∃ a b pq, tb.pq.Perm (a :: b :: pq) ∧ tb' = mergeNodes tb pq a b := by
  unfold mergeOnce at h
  split at h
  · cases h
  next a pq1 ha =>
    split at h
    · cases h
    next b pq2 hb =>
      cases h
      exact ⟨a, b, pq2, (extractMin_perm ha).trans ((extractMin_perm hb).cons a), rfl⟩

theorem mergeOnce_eq_none {tb : TreeWork} (h : mergeOnce tb = none) : tb.pq.length ≤ 1 := by
  unfold mergeOnce at h
  split at h
  next ha =>
    rw [(extractMin_eq_none_iff _ _).mp ha]
    exact Nat.zero_le 1
  next a pq1 ha =>
    split at h
    next hb =>
      rw [(extractMin_perm ha).length_eq, (extractMin_eq_none_iff _ _).mp hb]
      exact le_rfl
    · cases h

/-! ### The loop -/

/-- Node `i` is a child of node `k`. -/
def IsChild (t : NodeTable) (i k : NodeIdx) : Prop := (t.entry k).left = i ∨ (t.entry k).right = i

theorem not_isChild_iff (t : NodeTable) (i k : NodeIdx) :
    ¬ IsChild t i k ↔ (t.entry k).left ≠ i ∧ (t.entry k).right ≠ i := not_or

/-- Entry `k` is an internal node over two older, distinct nodes, with the sum of their weights (10_state.md R44
(c)). -/
def IsMerge (t : NodeTable) (k : NodeIdx) : Prop :=
  (t.entry k).leaf = false ∧ (t.entry k).sym = 0 ∧
    (t.entry k).left < k ∧ (t.entry k).right < k ∧ (t.entry k).left ≠ (t.entry k).right ∧
    (t.entry k).w.toNat = (t.entry (t.entry k).left).w.toNat + (t.entry (t.entry k).right).w.toNat

/-- The sum of the weights of the queued nodes. -/
def queueWeight (tb : TreeWork) : Nat := (tb.pq.map fun i => (tb.nodes.entry i).w.toNat).sum

/-- The invariant of BUILD's loop over the leaves `ls`. The nodes made so far are `ls.length .. next - 1`; the queued
nodes are exactly those without a parent; each pass makes one node and the queue one shorter; and the queue's weight
never changes, so that no sum of two weights leaves 40 bits (42_tree_builder.md R163 to R176). -/
structure MergeInv (ls : List Node) (tb : TreeWork) : Prop where
  next_ge : ls.length ≤ tb.next
  count : tb.next + tb.pq.length = 2 * ls.length
  queue_pos : 1 ≤ ls.length → 1 ≤ tb.pq.length
  nodup : tb.pq.Nodup
  queued_lt : ∀ i ∈ tb.pq, i.val < tb.next
  leaves : ∀ k : NodeIdx, k.val < ls.length → tb.nodes.entry k = (loadLeaves ls).entry k
  merges : ∀ k : NodeIdx, ls.length ≤ k.val → k.val < tb.next → IsMerge tb.nodes k
  one_parent : ∀ i : NodeIdx, i.val < tb.next → i ∉ tb.pq →
    ∃! k : NodeIdx, ls.length ≤ k.val ∧ k.val < tb.next ∧ IsChild tb.nodes i k
  no_parent : ∀ i ∈ tb.pq, ∀ k : NodeIdx, ls.length ≤ k.val → k.val < tb.next → ¬ IsChild tb.nodes i k
  unused : ∀ k : NodeIdx, tb.next ≤ k.val → tb.nodes.entry k = Node.zero
  weight : queueWeight tb ≤ ls.length * (2 ^ 32 - 1)

theorem nodeIdx_val_ofNat {n : Nat} (h : n ≤ 510) : (Fin.ofNat 511 n).val = n := Nat.mod_eq_of_lt (by omega)

/-- The loop starts with every leaf queued and no node made (42_tree_builder.md R163). -/
theorem initTree_inv {ls : List Node} (hlen : ls.length ≤ 256) (hleaf : ∀ nd ∈ ls, IsLeaf nd) :
    MergeInv ls (initTree ls) where
  next_ge := le_rfl
  count := by simp [initTree, two_mul]
  queue_pos := by simp [initTree]
  nodup := by
    refine (List.nodup_map_iff_inj_on List.nodup_range).mpr fun i hi j hj hij => ?_
    have hi := List.mem_range.mp hi
    have hj := List.mem_range.mp hj
    rw [Fin.ext_iff, nodeIdx_val_ofNat (by omega), nodeIdx_val_ofNat (by omega)] at hij
    exact hij
  queued_lt := by
    intro i hi
    obtain ⟨j, hj, rfl⟩ := List.mem_map.mp hi
    have hj := List.mem_range.mp hj
    rwa [nodeIdx_val_ofNat (by omega)]
  leaves := fun _ _ => rfl
  merges := fun k hge hlt => absurd hlt (Nat.not_lt.mpr hge)
  one_parent := by
    intro i hi hq
    refine absurd (List.mem_map.mpr ⟨i.val, List.mem_range.mpr hi, ?_⟩) hq
    exact Fin.ext (nodeIdx_val_ofNat (by omega))
  no_parent := fun _ _ k hge hlt => absurd hlt (Nat.not_lt.mpr hge)
  unused := by
    intro k hk
    rw [show (initTree ls).nodes = loadLeaves ls from rfl, entry_loadLeaves (by omega),
      List.getElem?_eq_none hk]
    rfl
  weight := by
    have hbound : ∀ x ∈ (initTree ls).pq.map fun i => ((initTree ls).nodes.entry i).w.toNat, x ≤ 2 ^ 32 - 1 := by
      intro x hx
      obtain ⟨i, hi, rfl⟩ := List.mem_map.mp hx
      obtain ⟨j, hj, rfl⟩ := List.mem_map.mp hi
      have hj := List.mem_range.mp hj
      rw [show (initTree ls).nodes = loadLeaves ls from rfl, entry_loadLeaves (by omega),
        nodeIdx_val_ofNat (by omega), List.getElem?_eq_getElem hj]
      obtain ⟨-, -, -, -, hlt⟩ := hleaf _ (List.getElem_mem hj)
      exact Nat.le_pred_of_lt hlt
    have hsum := List.sum_le_card_nsmul _ _ hbound
    simpa [queueWeight, initTree] using hsum

/-- The index of the node that the next pass makes. -/
def TreeWork.newIdx (tb : TreeWork) : NodeIdx := Fin.ofNat 511 tb.next

section Merge

variable {ls : List Node} {tb : TreeWork} {a b : NodeIdx} {pq : List NodeIdx}

@[simp] theorem mergeNodes_next : (mergeNodes tb pq a b).next = tb.next + 1 := rfl

theorem entry_mergeNodes_new : (mergeNodes tb pq a b).nodes.entry tb.newIdx = mergedNode tb.nodes a b :=
  NodeTable.entry_setEntry_same _ _ _

theorem entry_mergeNodes_old {k : NodeIdx} (h : k ≠ tb.newIdx) :
    (mergeNodes tb pq a b).nodes.entry k = tb.nodes.entry k :=
  NodeTable.entry_setEntry_other _ _ h

theorem isChild_mergeNodes_new (i : NodeIdx) :
    IsChild (mergeNodes tb pq a b).nodes i tb.newIdx ↔ i = a ∨ i = b := by
  unfold IsChild
  rw [entry_mergeNodes_new, eq_comm (a := i), eq_comm (a := i)]
  rfl

theorem isChild_mergeNodes_old {k : NodeIdx} (h : k ≠ tb.newIdx) (i : NodeIdx) :
    IsChild (mergeNodes tb pq a b).nodes i k ↔ IsChild tb.nodes i k := by
  unfold IsChild
  rw [entry_mergeNodes_old h]

/-- The weights queued before the pass are those of a and b and of the rest of the queue. -/
theorem queueWeight_perm (hperm : tb.pq.Perm (a :: b :: pq)) :
    queueWeight tb = (tb.nodes.entry a).w.toNat + ((tb.nodes.entry b).w.toNat +
      (pq.map fun i => (tb.nodes.entry i).w.toNat).sum) :=
  (hperm.map _).sum_eq

/-- What a pass starts from: the invariant, and two indices to merge with the rest of the queue. -/
structure Pass (ls : List Node) (tb : TreeWork) (a b : NodeIdx) (pq : List NodeIdx) : Prop where
  inv : MergeInv ls tb
  len : ls.length ≤ 256
  perm : tb.pq.Perm (a :: b :: pq)

variable (h : Pass ls tb a b pq)
include h

theorem Pass.mem_pq (i : NodeIdx) : i ∈ tb.pq ↔ i = a ∨ i = b ∨ i ∈ pq := by
  simp [h.perm.mem_iff]

theorem Pass.length_pq : tb.pq.length = pq.length + 2 := h.perm.length_eq

theorem Pass.newIdx_val : tb.newIdx.val = tb.next := by
  have hc := h.inv.count
  have hl := h.length_pq
  have hn := h.len
  exact nodeIdx_val_ofNat (by omega)

theorem Pass.ne_newIdx {k : NodeIdx} (hk : k.val < tb.next) : k ≠ tb.newIdx := by
  rintro rfl
  exact absurd h.newIdx_val hk.ne

theorem Pass.eq_newIdx_or_lt {k : NodeIdx} (hk : k.val < tb.next + 1) : k = tb.newIdx ∨ k.val < tb.next := by
  rcases Nat.lt_succ_iff_lt_or_eq.mp hk with hk | hk
  · exact .inr hk
  · exact .inl (Fin.ext (hk.trans h.newIdx_val.symm))

theorem Pass.left_lt : a.val < tb.next := h.inv.queued_lt a ((h.mem_pq a).mpr (.inl rfl))

theorem Pass.right_lt : b.val < tb.next := h.inv.queued_lt b ((h.mem_pq b).mpr (.inr (.inl rfl)))

theorem Pass.rest_lt {i : NodeIdx} (hi : i ∈ pq) : i.val < tb.next :=
  h.inv.queued_lt i ((h.mem_pq i).mpr (.inr (.inr hi)))

theorem Pass.nodup : (a ≠ b ∧ a ∉ pq) ∧ b ∉ pq ∧ pq.Nodup := by
  simpa using h.perm.nodup_iff.mp h.inv.nodup

/-- The pass queues the node it makes behind the rest of the queue. -/
theorem Pass.mergeNodes_pq : (mergeNodes tb pq a b).pq = pq ++ [tb.newIdx] :=
  insertKey_of_not_mem fun hq => h.ne_newIdx (h.rest_lt hq) rfl

theorem Pass.mem_mergeNodes_pq (i : NodeIdx) : i ∈ (mergeNodes tb pq a b).pq ↔ i ∈ pq ∨ i = tb.newIdx := by
  simp [h.mergeNodes_pq]

/-- The sum of two queued weights fits 40 bits (42_tree_builder.md R176). -/
theorem Pass.merged_weight :
    (mergedNode tb.nodes a b).w.toNat = (tb.nodes.entry a).w.toNat + (tb.nodes.entry b).w.toNat := by
  have hw := h.inv.weight
  have hn := h.len
  rw [queueWeight_perm h.perm] at hw
  simp only [mergedNode, BitVec.toNat_add]
  omega

theorem Pass.queueWeight_mergeNodes : queueWeight (mergeNodes tb pq a b) = queueWeight tb := by
  have hrest : (pq.map fun i => ((mergeNodes tb pq a b).nodes.entry i).w.toNat) =
      pq.map fun i => (tb.nodes.entry i).w.toNat :=
    List.map_congr_left fun i hi => by rw [entry_mergeNodes_old (h.ne_newIdx (h.rest_lt hi))]
  rw [queueWeight_perm h.perm, queueWeight, h.mergeNodes_pq, List.map_append, List.sum_append, hrest]
  simp only [List.map_cons, List.map_nil, List.sum_cons, List.sum_nil, entry_mergeNodes_new, h.merged_weight]
  omega

theorem Pass.isMerge_new : IsMerge (mergeNodes tb pq a b).nodes tb.newIdx := by
  have hval := h.newIdx_val
  have ha := h.left_lt
  have hb := h.right_lt
  obtain ⟨⟨hab, -⟩, -, -⟩ := h.nodup
  unfold IsMerge
  rw [entry_mergeNodes_new]
  refine ⟨rfl, rfl, ?_, ?_, hab, ?_⟩
  · exact Fin.lt_def.mpr (hval ▸ ha)
  · exact Fin.lt_def.mpr (hval ▸ hb)
  · rw [h.merged_weight]
    dsimp only [mergedNode]
    rw [entry_mergeNodes_old (h.ne_newIdx ha), entry_mergeNodes_old (h.ne_newIdx hb)]

theorem Pass.isMerge_old {k : NodeIdx} (hk : k.val < tb.next) (hm : IsMerge tb.nodes k) :
    IsMerge (mergeNodes tb pq a b).nodes k := by
  obtain ⟨hleaf, hsym, hl, hr, hne, hw⟩ := hm
  unfold IsMerge
  rw [entry_mergeNodes_old (h.ne_newIdx hk), entry_mergeNodes_old (h.ne_newIdx (Nat.lt_trans hl hk)),
    entry_mergeNodes_old (h.ne_newIdx (Nat.lt_trans hr hk))]
  exact ⟨hleaf, hsym, hl, hr, hne, hw⟩

/-- Only the new node has one of a and b as a child, for they were queued before. -/
theorem Pass.isChild_of_merged {i k : NodeIdx} (hi : i = a ∨ i = b) (hge : ls.length ≤ k.val)
    (hlt : k.val < tb.next + 1) (hc : IsChild (mergeNodes tb pq a b).nodes i k) : k = tb.newIdx := by
  rcases h.eq_newIdx_or_lt hlt with hk | hk
  · exact hk
  · have hq : i ∈ tb.pq := (h.mem_pq i).mpr (or_assoc.mp (.inl hi))
    exact absurd ((isChild_mergeNodes_old (h.ne_newIdx hk) i).mp hc) (h.inv.no_parent i hq k hge hk)

theorem Pass.one_parent {i : NodeIdx} (hi : i.val < tb.next + 1) (hq : i ∉ (mergeNodes tb pq a b).pq) :
    ∃! k : NodeIdx, ls.length ≤ k.val ∧ k.val < tb.next + 1 ∧ IsChild (mergeNodes tb pq a b).nodes i k := by
  rw [h.mem_mergeNodes_pq, not_or] at hq
  have hlt := (h.eq_newIdx_or_lt hi).resolve_left hq.2
  have hge := h.inv.next_ge
  have hval := h.newIdx_val
  by_cases hab : i = a ∨ i = b
  · exact ⟨tb.newIdx, ⟨by omega, by omega, (isChild_mergeNodes_new i).mpr hab⟩,
      fun k ⟨hkge, hklt, hkc⟩ => h.isChild_of_merged hab hkge hklt hkc⟩
  · have hold : i ∉ tb.pq := fun hi => hab (((or_assoc.mpr ((h.mem_pq i).mp hi))).resolve_right hq.1)
    obtain ⟨k, ⟨hkge, hklt, hkc⟩, huniq⟩ := h.inv.one_parent i hlt hold
    refine ⟨k, ⟨hkge, by omega, (isChild_mergeNodes_old (h.ne_newIdx hklt) i).mpr hkc⟩, ?_⟩
    rintro j ⟨hjge, hjlt, hjc⟩
    rcases h.eq_newIdx_or_lt hjlt with rfl | hj
    · exact absurd ((isChild_mergeNodes_new i).mp hjc) hab
    · exact huniq j ⟨hjge, hj, (isChild_mergeNodes_old (h.ne_newIdx hj) i).mp hjc⟩

theorem Pass.no_parent {i : NodeIdx} (hi : i ∈ (mergeNodes tb pq a b).pq) {k : NodeIdx} (hge : ls.length ≤ k.val)
    (hlt : k.val < tb.next + 1) : ¬ IsChild (mergeNodes tb pq a b).nodes i k := by
  obtain ⟨⟨-, hapq⟩, hbpq, -⟩ := h.nodup
  rcases h.eq_newIdx_or_lt hlt with rfl | hk
  · rw [isChild_mergeNodes_new]
    rcases (h.mem_mergeNodes_pq i).mp hi with hq | rfl
    · exact not_or.mpr ⟨fun he => hapq (he ▸ hq), fun he => hbpq (he ▸ hq)⟩
    · exact not_or.mpr ⟨(h.ne_newIdx h.left_lt).symm, (h.ne_newIdx h.right_lt).symm⟩
  · rw [isChild_mergeNodes_old (h.ne_newIdx hk)]
    rcases (h.mem_mergeNodes_pq i).mp hi with hq | rfl
    · exact h.inv.no_parent i ((h.mem_pq i).mpr (.inr (.inr hq))) k hge hk
    · obtain ⟨-, -, hl, hr, -⟩ := h.inv.merges k hge hk
      exact not_or.mpr ⟨h.ne_newIdx (Nat.lt_trans hl hk), h.ne_newIdx (Nat.lt_trans hr hk)⟩

/-- A pass keeps the invariant of the loop (42_tree_builder.md R168). -/
theorem Pass.mergeNodes_inv : MergeInv ls (mergeNodes tb pq a b) where
  next_ge := h.inv.next_ge.trans (Nat.le_succ _)
  count := by
    have hc := h.inv.count
    have hl := h.length_pq
    rw [mergeNodes_next, h.mergeNodes_pq, List.length_append, List.length_singleton]
    omega
  queue_pos := by simp [h.mergeNodes_pq]
  nodup := by
    obtain ⟨-, -, hpq⟩ := h.nodup
    rw [h.mergeNodes_pq]
    exact List.nodup_append_comm.mp (List.nodup_cons.mpr ⟨fun hq => h.ne_newIdx (h.rest_lt hq) rfl, hpq⟩)
  queued_lt := by
    intro i hi
    rw [mergeNodes_next]
    rcases (h.mem_mergeNodes_pq i).mp hi with hi | rfl
    · exact Nat.lt_succ_of_lt (h.rest_lt hi)
    · exact Nat.lt_succ_of_le h.newIdx_val.le
  leaves := by
    intro k hk
    rw [entry_mergeNodes_old (h.ne_newIdx (hk.trans_le h.inv.next_ge)), h.inv.leaves k hk]
  merges := by
    intro k hge hlt
    rcases h.eq_newIdx_or_lt hlt with rfl | hk
    · exact h.isMerge_new
    · exact h.isMerge_old hk (h.inv.merges k hge hk)
  one_parent := fun i hi hq => h.one_parent hi hq
  no_parent := fun i hi k hge hlt => h.no_parent hi hge hlt
  unused := by
    intro k hk
    rw [mergeNodes_next] at hk
    have hne : k ≠ tb.newIdx := by
      rintro rfl
      exact absurd h.newIdx_val (Nat.ne_of_gt hk)
    rw [entry_mergeNodes_old hne, h.inv.unused k (by omega)]
  weight := h.queueWeight_mergeNodes ▸ h.inv.weight

end Merge

/-- The loop keeps the invariant and, with a pass for every leaf, ends with at most one index queued. -/
theorem mergeAll_inv {ls : List Node} (hlen : ls.length ≤ 256) (fuel : Nat) {tb : TreeWork} (hinv : MergeInv ls tb)
    (hfuel : tb.pq.length ≤ fuel + 1) :
    MergeInv ls (mergeAll fuel tb) ∧ (mergeAll fuel tb).pq.length ≤ 1 := by
  induction fuel generalizing tb with
  | zero => exact ⟨hinv, hfuel⟩
  | succ fuel ih =>
    unfold mergeAll
    cases hm : mergeOnce tb with
    | none => exact ⟨hinv, mergeOnce_eq_none hm⟩
    | some tb' =>
      obtain ⟨a, b, pq, hperm, rfl⟩ := mergeOnce_eq_some hm
      have hpass : Pass ls tb a b pq := ⟨hinv, hlen, hperm⟩
      refine ih hpass.mergeNodes_inv ?_
      have hl := hpass.length_pq
      rw [hpass.mergeNodes_pq, List.length_append, List.length_singleton]
      omega

theorem buildTree_inv (freq : FreqTable) :
    MergeInv (leafNodes freq) (buildTree freq) ∧ (buildTree freq).pq.length ≤ 1 := by
  have hlen := leafNodes_length_le freq
  refine mergeAll_inv hlen _ (initTree_inv hlen fun _ => leafNodes_isLeaf) ?_
  simp [initTree]

/-- The node made last is queued: a parent would be younger. -/
theorem MergeInv.last_queued {ls : List Node} {tb : TreeWork} (hinv : MergeInv ls tb) {i : NodeIdx}
    (hi : i.val + 1 = tb.next) : i ∈ tb.pq := by
  by_contra hq
  obtain ⟨k, ⟨hge, hlt, hc⟩, -⟩ := hinv.one_parent i (by omega) hq
  obtain ⟨-, -, hl, hr, -⟩ := hinv.merges k hge hlt
  have hik : i < k := by
    rcases hc with rfl | rfl
    · exact hl
    · exact hr
  have := Fin.lt_def.mp hik
  omega

/-- The tree's root, the last of its 2n − 1 nodes (10_state.md R44 (e)). -/
def rootIdx (n : Nat) : NodeIdx := Fin.ofNat 511 (2 * n - 2)

theorem rootIdx_val {n : Nat} (h : n ≤ 256) : (rootIdx n).val = 2 * n - 2 := nodeIdx_val_ofNat (by omega)

/-- With a symbol counted the loop ends with 2n − 1 nodes made and the last one queued alone (42_tree_builder.md
R174). -/
theorem buildTree_end {freq : FreqTable} (hpos : 1 ≤ (leafNodes freq).length) :
    (buildTree freq).next = 2 * (leafNodes freq).length - 1 ∧
      (buildTree freq).pq = [rootIdx (leafNodes freq).length] := by
  obtain ⟨hinv, hle⟩ := buildTree_inv freq
  have hcount := hinv.count
  have hlen := leafNodes_length_le freq
  have hone : (buildTree freq).pq.length = 1 := le_antisymm hle (hinv.queue_pos hpos)
  obtain ⟨j, hj⟩ := List.length_eq_one_iff.mp hone
  have hroot := hinv.last_queued (i := rootIdx (leafNodes freq).length) (by rw [rootIdx_val hlen]; omega)
  rw [hj, List.mem_singleton] at hroot
  exact ⟨by omega, hroot ▸ hj⟩

/-- Without a symbol counted BUILD leaves NODE empty and nothing queued. -/
theorem buildTree_of_no_leaf {freq : FreqTable} (h : (leafNodes freq).length = 0) :
    buildTree freq = { nodes := NodeTable.zero, pq := [], next := 0 } := by
  unfold buildTree
  rw [List.length_eq_zero_iff.mp h]
  rfl

/-- BUILD leaves a tree of the shape of 10_state.md R44 where a symbol was counted. -/
theorem buildTree_shape {freq : FreqTable} (hpos : 1 ≤ (leafNodes freq).length) :
    TreeShape (buildTree freq).nodes (leafNodes freq).length (rootIdx (leafNodes freq).length) := by
  obtain ⟨hinv, -⟩ := buildTree_inv freq
  obtain ⟨hnext, hpq⟩ := buildTree_end hpos
  have hlen := leafNodes_length_le freq
  have hroot := rootIdx_val hlen
  have hlt {k : NodeIdx} (hk : k.val ≤ 2 * (leafNodes freq).length - 2) : k.val < (buildTree freq).next := by omega
  have hle {k : NodeIdx} (hk : k.val < (buildTree freq).next) : k.val ≤ 2 * (leafNodes freq).length - 2 := by omega
  have hleaf (k : NodeIdx) (hk : k.val < (leafNodes freq).length) :
      (buildTree freq).nodes.entry k = (leafNodes freq)[k.val] := by
    rw [hinv.leaves k hk, entry_loadLeaves (by omega), List.getElem?_eq_getElem hk, Option.getD_some]
  refine ⟨hpos, hlen, hroot, ?leaf, ?syms, ?internal, ?one_parent, ?root, ?unused⟩
  case leaf =>
    intro k hk
    rw [hleaf k hk]
    exact leafNodes_isLeaf (List.getElem_mem hk)
  case syms =>
    intro j k hjk hk
    rw [hleaf j (Nat.lt_trans hjk hk), hleaf k hk]
    exact List.pairwise_iff_getElem.mp (leafNodes_ascending freq) _ _ _ hk hjk
  case internal => exact fun k hge hk => hinv.merges k hge (hlt hk)
  case one_parent =>
    intro i hi
    have hq : i ∉ (buildTree freq).pq := by
      rw [hpq, List.mem_singleton]
      rintro rfl
      omega
    obtain ⟨k, ⟨hge, hk, hc⟩, huniq⟩ := hinv.one_parent i (hlt hi.le) hq
    exact ⟨k, ⟨hge, hle hk, hc⟩, fun j ⟨hjge, hj, hjc⟩ => huniq j ⟨hjge, hlt hj, hjc⟩⟩
  case root =>
    intro k hge hk
    refine (not_isChild_iff _ _ _).mp (hinv.no_parent _ ?_ k hge (hlt hk))
    rw [hpq]
    exact List.mem_singleton_self _
  case unused => exact fun k hk => hinv.unused k (by omega)

end Sys2Proof.Machine
end

section
/-! PROOFS. What every step keeps: the shape of the tree, the relations of STATUS, the ranges of the results, AW, and
the argument registers while BUSY = 1. -/

namespace Sys2Proof.Machine

open Sys2Proof.Safety

variable {s t u : State} {i : Instr} {e : ErrCode} {info : Word} {x : Turn}

/-! ### The tree -/

/-- BUILD leaves a tree where a symbol was counted, and empties it otherwise (42_tree_builder.md R174, R175). -/
theorem treeOk_build (s : State) : TreeOk (s.setTree (buildTree s.freq) (leafNodes s.freq).length) := by
  have hlen := leafNodes_length_le s.freq
  have hcount : (BitVec.ofNat 9 (leafNodes s.freq).length).toNat = (leafNodes s.freq).length :=
    Nat.mod_eq_of_lt (by omega)
  refine ⟨fun hv => ?_, fun hv => ?_⟩
  · have hpos : 1 ≤ (leafNodes s.freq).length := of_decide_eq_true hv
    obtain ⟨hnext, hpq⟩ := buildTree_end hpos
    simp only [State.setTree_node, State.setTree_leafCount, State.setTree_root, State.setTree_nodeCount,
      State.setTree_pq, hcount, hnext, hpq, List.head?_cons, Option.getD_some]
    exact ⟨buildTree_shape hpos, Nat.mod_eq_of_lt (by omega), trivial⟩
  · have hzero : (leafNodes s.freq).length = 0 := Nat.eq_zero_of_not_pos (of_decide_eq_false hv)
    rw [buildTree_of_no_leaf hzero, hzero]
    exact ⟨rfl, rfl, rfl, rfl, rfl⟩

theorem Completes.treeOk (h : Completes s i u e info) (hs : TreeOk s) : TreeOk u := by
  cases h with
  | build => exact treeOk_build s
  | _ => exact hs

theorem treeOk_resetBlock (s : State) : TreeOk s.resetBlock :=
  ⟨fun hv => absurd hv Bool.false_ne_true, fun _ => ⟨rfl, rfl, rfl, rfl, rfl⟩⟩

theorem Moves.treeOk (h : Moves s x t) (hs : TreeOk s) : TreeOk t := by
  cases h with
  | putReg _ r => cases r <;> exact hs
  | exec _ _ ht =>
    obtain ⟨u, e, info, hc, rfl⟩ := ht
    exact hc.treeOk hs
  | reset => exact treeOk_resetBlock s
  | powerOn => exact treeOk_resetBlock s
  | _ => exact hs

/-- Settles O49: only BUILD, reset and power-on write the tree; BUILD's loop keeps `MergeInv`, which at its end is the
shape. -/
theorem everyStepKeepsTheTreeShape : Obligations.EveryStepKeepsTheTreeShape := by
  intro s t hs h
  obtain ⟨ts, ops, obs, k, hm⟩ := step_moves h
  exact hm.treeOk hs

/-! ### STATUS -/

/-- No command reports E_INTERNAL, and ERR_INFO is 0 after a success (44_bit_packer.md R220, 10_state.md R32). -/
theorem Completes.code_info (h : Completes s i u e info) : e ≠ .internal ∧ (e = .ok → info = 0) := by
  cases h with
  | packRefused hok hint => exact ⟨hint, fun he => absurd he hok⟩
  | unpackRefused hok hint => exact ⟨hint, fun he => absurd he hok⟩
  | unpackScan _ _ _ _ hint hinfo => exact ⟨hint, hinfo⟩
  | _ => exact ⟨by decide, fun _ => rfl⟩

theorem Completes.pending_eq_cmd (h : Completes s i u e info) (hs : s.pending = s.cmd) : u.pending = u.cmd := by
  cases h <;> exact hs

theorem statusOk_raise (hp : u.pending = u.cmd) (he : e ≠ .internal) (hi : e = .ok → info = 0) :
    StatusOk (u.raise e info) :=
  ⟨fun hb => absurd hb Bool.false_ne_true, hp, he, fun _ => hi⟩

theorem statusOk_resetBlock (s : State) : StatusOk s.resetBlock :=
  ⟨fun _ => ⟨rfl, rfl⟩, rfl, ErrCode.noConfusion, fun _ _ => rfl⟩

theorem statusOk_putReg (hb : s.status.busy = false) (hs : StatusOk s) (r : RegName) (v : Word) :
    StatusOk (s.putReg r v) := by
  cases r with
  | cmd => exact ⟨fun _ => ⟨rfl, rfl⟩, rfl, ErrCode.noConfusion, fun h => absurd h.symm Bool.false_ne_true⟩
  | status =>
    obtain ⟨-, hp, he, hi⟩ := hs
    exact ⟨fun h => absurd (hb.symm.trans h) Bool.false_ne_true, hp, he, hi⟩
  | _ => exact hs

theorem Moves.statusOk (h : Moves s x t) (hs : StatusOk s) : StatusOk t := by
  have ⟨_, hpending, _⟩ := hs
  cases h with
  | putReg hb r v => exact statusOk_putReg hb hs r v
  | exec _ _ ht =>
    obtain ⟨u, e, info, hc, rfl⟩ := ht
    obtain ⟨he, hi⟩ := hc.code_info
    exact statusOk_raise (hc.pending_eq_cmd hpending) he hi
  | illegal => exact statusOk_raise hpending (by decide) (fun h => absurd h (by decide))
  | reset => exact statusOk_resetBlock s
  | powerOn => exact statusOk_resetBlock s
  | _ => exact hs

/-! ### The result registers -/

theorem State.pow_aw_le (s : State) : 2 ^ s.aw ≤ 2 ^ 28 := Nat.pow_le_pow_right (by decide) s.aw_le

@[simp] theorem toNat_wordOf {n : Nat} (h : n < 2 ^ 32) : (wordOf n).toNat = n := Nat.mod_eq_of_lt h

@[simp] theorem toNat_byteOf {n : Nat} (h : n < 256) : (byteOf n).toNat = n := Nat.mod_eq_of_lt h

/-- The results hold numbers in their ranges (10_state.md R28 to R30). -/
theorem resultsOk_of_numbers {m p l : Nat} (ho : s.outLen = wordOf m) (hp : s.pad = byteOf p)
    (hl : s.payloadBits = wordOf l) (hm : m ≤ 2 ^ s.aw) (hp8 : p ≤ 8) (hl31 : l < 2 ^ 31) : ResultsOk s := by
  have haw := s.pow_aw_le
  unfold ResultsOk
  rw [ho, hp, hl, toNat_wordOf (by omega), toNat_byteOf (by omega), toNat_wordOf (by omega)]
  exact ⟨hm, hp8, hl31⟩

theorem resultsOk_resetBlock (s : State) : ResultsOk s.resetBlock :=
  resultsOk_of_numbers (m := 0) (p := 0) (l := 0) rfl rfl rfl (Nat.zero_le _) (by decide) (by decide)

theorem resultsOk_clearResults (s : State) : ResultsOk s.clearResults :=
  resultsOk_of_numbers (m := 0) (p := 0) (l := 0) rfl rfl rfl (Nat.zero_le _) (by decide) (by decide)

theorem Completes.resultsOk (h : Completes s i u e info) (hs : ResultsOk s) : ResultsOk u := by
  have haw := s.pow_aw_le
  cases h with
  | packRefused => exact resultsOk_clearResults s
  | packMarker =>
    exact resultsOk_of_numbers (m := 1) (p := 0) (l := 0) rfl rfl rfl Nat.one_le_two_pow (by decide) (by decide)
  | @packStream l hr _ hcap =>
    obtain ⟨-, hdst, -⟩ := (rangeError_eq_none_iff s).mp hr
    obtain ⟨-, hpad⟩ := padOf_range l
    have hlen : 8 + l ≤ 8 * packedLength l := by
      have := frame_mod_eight l
      unfold packedLength
      omega
    have hout : packedLength l ≤ 2 ^ s.aw := by omega
    exact resultsOk_of_numbers (m := packedLength l) rfl rfl rfl hout hpad (by omega)
  | unpackRefused => exact resultsOk_clearResults s
  | unpackMarker => exact resultsOk_clearResults s
  | @unpackScan h w _ _ hr hh _ hcap =>
    obtain ⟨hsrc, hdst, -⟩ := (rangeError_eq_none_iff s).mp hr
    have hout : w.out ≤ 2 ^ s.aw := by omega
    exact resultsOk_of_numbers (m := w.out) rfl rfl rfl hout hh (by omega)
  | _ => exact hs

theorem Moves.resultsOk (h : Moves s x t) (hs : ResultsOk s) : ResultsOk t := by
  cases h with
  | putReg _ r => cases r <;> exact hs
  | exec _ _ ht =>
    obtain ⟨u, e, info, hc, rfl⟩ := ht
    exact hc.resultsOk hs
  | reset => exact resultsOk_resetBlock s
  | powerOn => exact resultsOk_resetBlock s
  | _ => exact hs

/-- Settles O50: an issue sets STATUS, and a completion ends with a code and numbers in range. -/
theorem everyStepKeepsTheRegisterRelations : Obligations.EveryStepKeepsTheRegisterRelations := by
  intro s t h
  obtain ⟨ts, ops, obs, k, hm⟩ := step_moves h
  exact ⟨hm.statusOk, hm.resultsOk⟩

/-! ### AW -/

theorem Completes.awOver8_eq (h : Completes s i u e info) : u.awOver8 = s.awOver8 := by
  cases h <;> rfl

theorem Moves.awOver8_eq (h : Moves s x t) : t.awOver8 = s.awOver8 := by
  cases h with
  | putReg _ r => cases r <;> rfl
  | exec _ _ ht =>
    obtain ⟨u, e, info, hc, rfl⟩ := ht
    exact hc.awOver8_eq
  | _ => rfl

theorem aw_congr (h : t.awOver8 = s.awOver8) : t.aw = s.aw := by
  unfold State.aw
  rw [h]

theorem step_aw (h : step s = .next t) : t.aw = s.aw := by
  obtain ⟨ts, ops, obs, k, hm⟩ := step_moves h
  exact aw_congr hm.awOver8_eq

/-- Settles O52: ID is a constant, and PARAM holds AW, which no step changes. -/
theorem identityRegistersNeverChange : Obligations.IdentityRegistersNeverChange := by
  intro s t h
  have haw := step_aw h
  refine ⟨haw, rfl, ?_⟩
  simp only [State.regValue, State.paramWord, haw]

/-! ### The argument registers -/

/-- The argument registers agree (10_state.md R22). -/
def SameArgs (s t : State) : Prop :=
  t.srcAddr = s.srcAddr ∧ t.srcLen = s.srcLen ∧ t.dstAddr = s.dstAddr ∧ t.dstCap = s.dstCap

theorem SameArgs.refl (s : State) : SameArgs s s := ⟨rfl, rfl, rfl, rfl⟩

theorem Completes.sameArgs (h : Completes s i u e info) : SameArgs s u := by
  cases h <;> exact SameArgs.refl s

theorem CompletesTo.sameArgs (h : CompletesTo s i t) : SameArgs s t := by
  obtain ⟨u, e, info, hc, rfl⟩ := h
  exact hc.sameArgs

theorem Moves.sameArgs_of_busy (h : Moves s x t) (hb : s.status.busy = true) (hr : x ≠ .reset) (hp : x ≠ .powerOn) :
    SameArgs s t := by
  cases h with
  | putReg hidle => exact absurd (hb.symm.trans hidle) Bool.noConfusion
  | exec _ _ ht => exact ht.sameArgs
  | reset => exact absurd rfl hr
  | powerOn => exact absurd rfl hp
  | _ => exact SameArgs.refl s

/-- Settles O54: no completion of `Completes` writes them, and a Host write while BUSY = 1 is dropped. -/
theorem argumentsStayStableWhileBusy : Obligations.ArgumentsStayStableWhileBusy := by
  refine ⟨fun i s t h => (exec_completes h).sameArgs, fun s t h hb hr hp => ?_⟩
  obtain ⟨ts, ops, obs, k, hm⟩ := step_moves h
  exact hm.sameArgs_of_busy hb hr hp

end Sys2Proof.Machine
end

section
/-! PROOFS. The register space: which register an offset reaches, the words of the registers, and what a Host read or
write does while BUSY = 0 (10_state.md R22 to R46; 20_memory.md R70, R71; 40_control.md R140, R141). -/

namespace Sys2Proof.Machine

open Sys2Proof.Safety

/-! ### Offsets -/

@[simp] theorem byteOf_toNat (x : Byte) : byteOf x.toNat = x := BitVec.eq_of_toNat_eq (toNat_byteOf x.isLt)

theorem nodeWordOf_place (w : NodeWord) : nodeWordOf (nodeWordPlace w) = w := by cases w <;> rfl

theorem nodeWordPlace_lt (w : NodeWord) : nodeWordPlace w < 4 := by cases w <;> decide

/-- The decoder of offsets ignores bits 1:0 (20_memory.md R70). -/
theorem regAt_congr {o o' : Offset} (h : o.toNat / 4 = o'.toNat / 4) : regAt o = regAt o' := by
  unfold regAt
  rw [h]

theorem regAt_freq {o : Offset} (x : Byte) (h : o.toNat / 4 = 0x100 + x.toNat) : regAt o = some (.freq x) := by
  have hx := x.isLt
  unfold regAt
  simp only [h]
  rw [if_neg (by omega), if_neg (by omega), if_pos (by omega), show 0x100 + x.toNat - 0x400 / 4 = x.toNat by omega,
    byteOf_toNat]

theorem regAt_node {o : Offset} (k : NodeIdx) (w : NodeWord) (h : o.toNat / 4 = 0x800 + 4 * k.val + nodeWordPlace w) :
    regAt o = some (.node k w) := by
  have hk := k.isLt
  have hw := nodeWordPlace_lt w
  unfold regAt
  simp only [h]
  rw [if_neg (by omega), if_neg (by omega), if_neg (by omega), if_neg (by omega), if_pos (by omega),
    show (0x800 + 4 * k.val + nodeWordPlace w - 0x2000 / 4) / 4 = k.val by omega,
    show (0x800 + 4 * k.val + nodeWordPlace w - 0x2000 / 4) % 4 = nodeWordPlace w by omega, nodeWordOf_place,
    Fin.ofNat_val_eq_self]

/-- An offset inside the CODE windows reaches word `j` of the entry of `x` (10_state.md R46). -/
theorem regAt_code {o : Offset} (x : Byte) {j : Nat} (hj : j < 16) (h : o.toNat / 4 = 0x1000 + 16 * x.toNat + j) :
    regAt o = codeRegAt x j := by
  have hx := x.isLt
  unfold regAt
  simp only [h]
  rw [if_neg (by omega), if_neg (by omega), if_neg (by omega), if_neg (by omega), if_neg (by omega), if_neg (by omega),
    if_pos (by omega), show (0x1000 + 16 * x.toNat + j - 0x4000 / 4) / 16 = x.toNat by omega,
    show (0x1000 + 16 * x.toNat + j - 0x4000 / 4) % 16 = j by omega, byteOf_toNat]

theorem codeRegAt_val (x : Byte) (j : Fin 8) : codeRegAt x (1 + j.val) = some (.codeVal x j) := by
  have hj := j.isLt
  unfold codeRegAt
  rw [if_neg (by omega), if_pos (by omega), show 1 + j.val - 1 = j.val by omega, Fin.ofNat_val_eq_self]

/-- Every register is reached at its offset (20_memory.md R71). -/
@[simp] theorem regAt_regOffset (r : RegName) : regAt (regOffset r) = some r := by
  cases r with
  | freq x =>
    have hx := x.isLt
    refine regAt_freq x ?_
    simp only [regOffset, BitVec.toNat_ofNat]
    omega
  | node k w =>
    have hk := k.isLt
    have hw := nodeWordPlace_lt w
    refine regAt_node k w ?_
    simp only [regOffset, BitVec.toNat_ofNat]
    omega
  | codeLen x =>
    have hx := x.isLt
    refine regAt_code x (j := 0) (by decide) ?_
    simp only [regOffset, BitVec.toNat_ofNat]
    omega
  | codeVal x j =>
    have hx := x.isLt
    have hj := j.isLt
    rw [← codeRegAt_val x j]
    refine regAt_code x (by omega) ?_
    simp only [regOffset, BitVec.toNat_ofNat]
    omega
  | _ => decide

/-- Masking bits 1:0 off an offset keeps its word number. -/
theorem offset_mask_div (o : Offset) : (o &&& 0xFFFC).toNat / 4 = o.toNat / 4 := by
  have ho := o.isLt
  rw [BitVec.toNat_and, show (4 : Nat) = 2 ^ 2 from rfl, ← Nat.shiftRight_eq_div_pow, ← Nat.shiftRight_eq_div_pow,
    Nat.shiftRight_and_distrib, show BitVec.toNat (0xFFFC : Offset) >>> 2 = 2 ^ 14 - 1 from rfl,
    Nat.and_two_pow_sub_one_eq_mod, Nat.shiftRight_eq_div_pow]
  omega

theorem regAt_of_mask {o : Offset} {r : RegName} (h : o &&& 0xFFFC = regOffset r) : regAt o = some r := by
  rw [← regAt_regOffset r, ← h]
  exact regAt_congr (offset_mask_div o).symm

/-! ### Transactions while BUSY = 0 -/

theorem readIsFree_of_idle {s : State} (hb : s.status.busy = false) (o : Offset) : s.readIsFree o = false := by
  unfold State.readIsFree
  rw [hb, Bool.false_and]

theorem readReg_of_idle {s : State} (hb : s.status.busy = false) {o : Offset} {r : RegName} (hr : regAt o = some r) :
    s.readReg o = s.regValue r := by
  unfold State.readReg
  rw [readIsFree_of_idle hb, hr]
  rfl

/-- A reserved offset reads 0 (10_state.md R36). -/
theorem readReg_of_reserved {s : State} {o : Offset} (hr : regAt o = none) : s.readReg o = 0 := by
  unfold State.readReg State.readIsFree
  rw [hr, Bool.and_false]
  rfl

theorem hostReadReg_of_idle {s : State} (hb : s.status.busy = false) (o : Offset) :
    s.hostReadReg o = s.observe (.reg o (s.readReg o)) := by
  unfold State.hostReadReg
  rw [readIsFree_of_idle hb]
  rfl

theorem hostReadDmem_of_idle {s : State} (hb : s.status.busy = false) (a : Nat) :
    s.hostReadDmem a = s.observe (.dmem a (s.memRead a)) := by
  unfold State.hostReadDmem State.readDmem
  rw [hb]
  rfl

theorem hostWriteReg_of_idle {s : State} (hb : s.status.busy = false) {o : Offset} {r : RegName} (hr : regAt o = some r)
    (v : Word) : s.hostWriteReg o v = s.putReg r v := by
  unfold State.hostWriteReg
  rw [hb, hr]
  rfl

theorem hostWriteReg_of_reserved {s : State} (hb : s.status.busy = false) {o : Offset} (hr : regAt o = none)
    (v : Word) : s.hostWriteReg o v = s := by
  unfold State.hostWriteReg
  rw [hb, hr]
  rfl

theorem putReg_of_readOnly {r : RegName} (h : readOnlyReg r) (s : State) (v : Word) : s.putReg r v = s := by
  cases r <;> cases h <;> rfl

/-- Settles O15: the write reaches no register, or one whose `putReg` is the identity. -/
theorem reservedAndReadOnlyWritesAreIgnored : Obligations.ReservedAndReadOnlyWritesAreIgnored := by
  intro s o v hb hro
  show Host.Outcome.next (s.hostWriteReg o v) = .next s
  cases hr : regAt o with
  | none => rw [hostWriteReg_of_reserved hb hr]
  | some r => rw [hostWriteReg_of_idle hb hr, putReg_of_readOnly (hro r hr)]

theorem Status.writeOneToClear_eq (st : Status) (v : Word) :
    st.writeOneToClear v =
      { st with
        done := if v.getLsbD 1 then false else st.done
        busyWr := if v.getLsbD 3 then false else st.busyWr } := by
  unfold Status.writeOneToClear
  cases v.getLsbD 1 <;> cases v.getLsbD 3 <;> simp

/-- Settles O11: bits 1:0 of the offset are ignored, so the write reaches STATUS. -/
theorem statusWriteClearsOnlyDoneAndBusyWr : Obligations.StatusWriteClearsOnlyDoneAndBusyWr := by
  intro s o v hb ho
  show Host.Outcome.next (s.hostWriteReg o v) = _
  rw [hostWriteReg_of_idle hb (regAt_of_mask (r := .status) ho), ← Status.writeOneToClear_eq]
  rfl

/-! ### The words of the registers -/

/-- Two fields side by side in a word, the upper one from bit `k` on. -/
theorem toNat_or_shiftLeft {a b : Word} {k : Nat} (ha : a.toNat < 2 ^ k) (hb : b.toNat * 2 ^ k < 2 ^ 32) :
    (a ||| b <<< k).toNat = a.toNat + b.toNat * 2 ^ k := by
  rw [BitVec.toNat_or, BitVec.toNat_shiftLeft, Nat.shiftLeft_eq, Nat.mod_eq_of_lt hb, Nat.or_comm, ← Nat.shiftLeft_eq,
    ← Nat.shiftLeft_add_eq_or_of_lt ha, Nat.add_comm]

theorem toNat_flagBit_zero (b : Bool) : (flagBit b 0).toNat = b.toNat := by cases b <;> rfl

theorem toNat_setWidth_word {n : Nat} (x : BitVec n) (h : n ≤ 32) : (x.setWidth 32 : Word).toNat = x.toNat := by
  rw [BitVec.toNat_setWidth, Nat.mod_eq_of_lt (x.isLt.trans_le (Nat.pow_le_pow_right (by decide) h))]

theorem toNat_paramWord (s : State) : s.paramWord.toNat = 8 + 255 * 2 ^ 8 + s.aw * 2 ^ 16 + 1 * 2 ^ 24 := by
  have haw := s.aw_le
  unfold State.paramWord
  rw [toNat_wordOf]
  · rfl
  · simp only [Config.symBits, Config.maxCodeLen, Config.ifVersion]
    omega

theorem toNat_nodeWordValue (nd : Node) :
    (nodeWordValue nd .wLo).toNat = nd.w.toNat % 2 ^ 32 ∧ (nodeWordValue nd .wHi).toNat = nd.w.toNat / 2 ^ 32 ∧
    (nodeWordValue nd .kind).toNat = nd.leaf.toNat + nd.sym.toNat * 2 ^ 8 ∧
    (nodeWordValue nd .link).toNat = nd.left.val + nd.right.val * 2 ^ 16 := by
  have hw := nd.w.isLt
  have hl := nd.left.isLt
  have hr := nd.right.isLt
  have hleaf := nd.leaf.toNat_lt
  have hsym := nd.sym.isLt
  refine ⟨?_, ?_, ?_, ?_⟩
  · simp [nodeWordValue]
  · simp only [nodeWordValue, toNat_setWidth_word _ (show 8 ≤ 32 by decide), BitVec.extractLsb'_toNat,
      Nat.shiftRight_eq_div_pow]
    omega
  · have hs := toNat_setWidth_word nd.sym (by decide)
    have hf := toNat_flagBit_zero nd.leaf
    rw [nodeWordValue, toNat_or_shiftLeft (by omega) (by omega), hf, hs]
  · have hl' := toNat_wordOf (n := nd.left.val) (by omega)
    have hr' := toNat_wordOf (n := nd.right.val) (by omega)
    rw [nodeWordValue, toNat_or_shiftLeft (by omega) (by omega), hl', hr']

theorem toNat_valWord (v : CodeVal) (j : Fin 8) : (valWord v j).toNat = v.toNat / 2 ^ (32 * j.val) % 2 ^ 32 := by
  rw [valWord, BitVec.extractLsb'_toNat, Nat.shiftRight_eq_div_pow]

/-- Settles O16: the word of each register as a number, then the reads, which draw nothing while BUSY = 0. -/
theorem idleReadsReturnTheDefinedValue : Obligations.IdleReadsReturnTheDefinedValue := by
  refine ⟨fun s => ?_, fun s hb => ⟨fun o r hr => ?_, fun o hr => ?_, fun a ha => ?_⟩⟩
  · have hroot := s.root.isLt
    exact ⟨rfl, toNat_paramWord s, rfl, rfl, toNat_flagBit_zero s.ie, rfl, rfl, rfl, rfl, rfl,
      toNat_setWidth_word s.pad (by decide), rfl, rfl, toNat_setWidth_word s.leafCount (by decide),
      toNat_setWidth_word s.nodeCount (by decide), toNat_wordOf (by omega), fun _ => rfl,
      fun k => toNat_nodeWordValue (s.node.entry k), fun x => toNat_setWidth_word (entryOf s.code x).len (by decide),
      fun x j => toNat_valWord (entryOf s.code x).val j⟩
  · show Host.Outcome.next (s.hostReadReg o) = _
    rw [hostReadReg_of_idle hb, readReg_of_idle hb hr]
    rfl
  · show Host.Outcome.next (s.hostReadReg o) = _
    rw [hostReadReg_of_idle hb, readReg_of_reserved hr]
    rfl
  · show (if s.inDmem a 1 then Host.Outcome.next (s.hostReadDmem a) else .fault Fault.dmemPortAddress) = _
    rw [if_pos ((inDmem_iff s a 1).mpr ha), hostReadDmem_of_idle hb]
    rfl

theorem flagBit_getLsbD_zero (v : Word) : flagBit (v.getLsbD 0) 0 = v &&& 1 := by
  refine BitVec.eq_of_toNat_eq ?_
  rw [toNat_flagBit_zero, BitVec.getLsbD, Nat.toNat_testBit, BitVec.toNat_and,
    show BitVec.toNat (1 : Word) = 1 from rfl, Nat.and_one_is_mod, pow_zero, Nat.div_one]

theorem setWidth_low_byte (v : Word) : (v.extractLsb' 0 8).setWidth 32 = v &&& 0xFF := by
  refine BitVec.eq_of_toNat_eq ?_
  rw [toNat_setWidth_word _ (by decide), BitVec.extractLsb'_toNat, BitVec.toNat_and,
    show BitVec.toNat (0xFF : Word) = 2 ^ 8 - 1 from rfl, Nat.and_two_pow_sub_one_eq_mod, Nat.shiftRight_zero]

/-- After a write of word `j` of VAL, the bits at its place are the word's (20_memory.md R79). -/
theorem getLsbD_setValWord (v : CodeVal) (j : Fin 8) (w : Word) {i : Nat} (hi : i < 32) :
    (setValWord v j w).getLsbD (32 * j.val + i) = w.getLsbD i := by
  have hj := j.isLt
  have hlt : 32 * j.val + i < 256 := by omega
  have hmask : (0xFFFFFFFF#32).getLsbD i = true := by
    rw [show 0xFFFFFFFF#32 = BitVec.allOnes 32 from rfl, BitVec.getLsbD_allOnes, decide_eq_true hi]
  rw [setValWord, BitVec.getLsbD_or, BitVec.getLsbD_and, BitVec.getLsbD_not, BitVec.getLsbD_shiftLeft,
    BitVec.getLsbD_shiftLeft, BitVec.getLsbD_setWidth, BitVec.getLsbD_setWidth, Nat.add_sub_cancel_left, hmask]
  simp [hlt, show i < 256 by omega]

theorem valWord_setValWord (v : CodeVal) (j : Fin 8) (w : Word) : valWord (setValWord v j w) j = w := by
  refine BitVec.eq_of_getLsbD_eq fun i hi => ?_
  rw [valWord, BitVec.getLsbD_extractLsb', getLsbD_setValWord v j w hi]
  simp [hi]

/-- With BUSY = 0, what a Host write puts into a register other than CMD is what a read returns. -/
theorem readReg_hostWriteReg {s : State} (hb : s.status.busy = false) {r : RegName} (hr : r ≠ .cmd) (v : Word) :
    (s.hostWriteReg (regOffset r) v).readReg (regOffset r) = (s.putReg r v).regValue r := by
  rw [hostWriteReg_of_idle hb (regAt_regOffset r)]
  refine readReg_of_idle ?_ (regAt_regOffset r)
  cases r with
  | cmd => exact absurd rfl hr
  | _ => exact hb

/-- Settles O13: a read after the write is the word of the register put, and each such word is computed. -/
theorem writableWordsReadBack : Obligations.WritableWordsReadBack := by
  intro s v hb
  refine ⟨fun r hr => ?_, ?_, fun x => ?_, fun x => ?_, fun x j => ?_⟩
  · simp only [List.mem_cons, List.not_mem_nil, or_false] at hr
    obtain rfl | rfl | rfl | rfl := hr <;> exact readReg_hostWriteReg hb (by decide) v
  · rw [readReg_hostWriteReg hb (by decide)]
    exact flagBit_getLsbD_zero v
  · rw [readReg_hostWriteReg hb (by simp)]
    exact entryOf_setEntry_same _ _ _
  · rw [readReg_hostWriteReg hb (by simp)]
    simp only [State.putReg, State.regValue, entryOf_setEntry_same]
    exact setWidth_low_byte v
  · rw [readReg_hostWriteReg hb (by simp)]
    simp only [State.putReg, State.regValue, entryOf_setEntry_same]
    exact valWord_setValWord _ j v

end Sys2Proof.Machine
end

section
/-! PROOFS. The STATUS word (10_state.md R26, 60_exceptions.md R301) and the state after reset (10_state.md R55,
70_reset_and_hazards.md R340). -/

namespace Sys2Proof.Machine

open Sys2Proof.Safety

/-! ### STATUS -/

theorem getLsbD_flagBit (b : Bool) {n : Nat} (hn : n < 32) (i : Nat) :
    (flagBit b n).getLsbD i = (b && decide (i = n)) := by
  cases b with
  | false => exact BitVec.getLsbD_zero
  | true =>
    show (1#32 <<< n).getLsbD i = _
    rw [BitVec.getLsbD_shiftLeft, BitVec.getLsbD_one, Bool.true_and, Bool.eq_iff_iff]
    simp only [Bool.and_eq_true, Bool.not_eq_true', decide_eq_true_eq, decide_eq_false_iff_not]
    omega

/-- ERR reads (ERRCODE ≠ 0) (10_state.md R26). -/
theorem Status.err_iff (st : Status) : st.err = true ↔ st.errCode ≠ .ok := by
  unfold Status.err
  cases st.errCode <;> decide

/-- Bit by bit, the flags of STATUS and from bit 8 on the error code (10_state.md R26). -/
theorem Status.getLsbD_word (st : Status) (i : Nat) : st.word.getLsbD i =
    ((st.busy && decide (i = 0)) || (st.done && decide (i = 1)) || (st.err && decide (i = 2)) ||
      (st.busyWr && decide (i = 3)) || (st.treeValid && decide (i = 4)) ||
      (decide (8 ≤ i) && st.errCode.byte.getLsbD (i - 8))) := by
  simp only [Status.word, BitVec.getLsbD_or, getLsbD_flagBit _ (show 0 < 32 by decide),
    getLsbD_flagBit _ (show 1 < 32 by decide), getLsbD_flagBit _ (show 2 < 32 by decide),
    getLsbD_flagBit _ (show 3 < 32 by decide), getLsbD_flagBit _ (show 4 < 32 by decide)]
  congr 1
  rw [BitVec.getLsbD_shiftLeft, BitVec.getLsbD_setWidth]
  by_cases hi : 8 ≤ i
  · by_cases h32 : i < 32
    · simp [hi, h32, show ¬ i < 8 by omega, show i - 8 < 32 by omega]
    · simp [h32, BitVec.getLsbD_of_ge st.errCode.byte (i - 8) (by omega)]
  · simp [hi, show i < 8 by omega]

/-- Above the flags STATUS holds the error code's bits only. -/
theorem Status.getLsbD_word_of_ge (st : Status) {i : Nat} (hi : 5 ≤ i) :
    st.word.getLsbD i = (decide (8 ≤ i) && st.errCode.byte.getLsbD (i - 8)) := by
  rw [st.getLsbD_word]
  simp [show i ≠ 0 by omega, show i ≠ 1 by omega, show i ≠ 2 by omega, show i ≠ 3 by omega, show i ≠ 4 by omega]

theorem Status.word_reserved_low (st : Status) : st.word.extractLsb' 5 3 = 0 := by
  refine BitVec.eq_of_getLsbD_eq fun i hi => ?_
  rw [BitVec.getLsbD_extractLsb', st.getLsbD_word_of_ge (Nat.le_add_right 5 i)]
  simp [show ¬ 8 ≤ 5 + i by omega]

theorem Status.word_code (st : Status) : st.word.extractLsb' 8 8 = st.errCode.byte := by
  refine BitVec.eq_of_getLsbD_eq fun i hi => ?_
  rw [BitVec.getLsbD_extractLsb', st.getLsbD_word_of_ge (by omega), decide_eq_true hi, decide_eq_true (by omega),
    Nat.add_sub_cancel_left, Bool.true_and, Bool.true_and]

theorem Status.word_reserved_high (st : Status) : st.word.extractLsb' 16 16 = 0 := by
  refine BitVec.eq_of_getLsbD_eq fun i hi => ?_
  rw [BitVec.getLsbD_extractLsb', st.getLsbD_word_of_ge (by omega),
    BitVec.getLsbD_of_ge st.errCode.byte (16 + i - 8) (by omega)]
  simp

/-- Settles O12, from the bits of the word. -/
theorem statusWordHoldsItsFields : Obligations.StatusWordHoldsItsFields := by
  refine ⟨by decide, fun st => ⟨status_word_busy st, ?_, ?_, ?_, ?_, st.word_reserved_low, st.word_code,
    st.word_reserved_high⟩⟩
  · rw [st.getLsbD_word]; simp
  · rw [st.getLsbD_word, ← st.err_iff]; simp
  · rw [st.getLsbD_word]; simp
  · rw [st.getLsbD_word]; simp

/-! ### Reset -/

/-- After a reset every register but ID and PARAM reads 0 (10_state.md R55). -/
theorem regValue_resetBlock (s : State) {r : RegName} (hid : r ≠ .id) (hparam : r ≠ .param) :
    s.resetBlock.regValue r = 0 := by
  cases r with
  | id => exact absurd rfl hid
  | param => exact absurd rfl hparam
  | status =>
    show State.reset.status.word = 0
    decide
  | freq x => exact entryOf_freqZero x
  | node k w =>
    show nodeWordValue (NodeTable.entry NodeTable.zero k) w = 0
    rw [entry_nodeZero]
    cases w <;> decide
  | codeLen x =>
    show (entryOf CodeTable.zero x).len.setWidth 32 = 0
    rw [entryOf_codeZero]
    rfl
  | codeVal x j =>
    show valWord (entryOf CodeTable.zero x).val j = 0
    rw [entryOf_codeZero]
    exact BitVec.extractLsb'_zero
  | _ => rfl

/-- The step on the reset's turn is the reset of the block (70_reset_and_hazards.md R340). -/
theorem step_of_reset {s : State} (h : (nextTurn s).1 = .reset) :
    step s = .next (s.setTurns (nextTurn s).2).resetBlock := by
  unfold step
  rw [h]
  rfl

/-- A reset leaves the DMEM of an idle block alone (70_reset_and_hazards.md R340). -/
theorem resetBlock_dmem_of_idle {s : State} (hb : s.status.busy = false) : s.resetBlock.dmem = s.dmem := by
  unfold State.resetBlock State.packingPending
  rw [hb]
  rfl

/-- Settles O20: the step is the reset, after which each register's word is computed. -/
theorem resetGivesEveryRegisterItsValue : Obligations.ResetGivesEveryRegisterItsValue := by
  intro s h
  refine ⟨_, step_of_reset h, rfl, rfl, rfl, fun r => regValue_resetBlock _, rfl, rfl, rfl, fun hb x => ?_⟩
  exact memRead_congr (resetBlock_dmem_of_idle (s := s.setTurns (nextTurn s).2) hb) rfl x

/-- Settles O21: the state after reset is what a reset makes of it, so the facts about a reset hold of it. -/
theorem resetStateIsIdle : Obligations.ResetStateIsIdle := by
  refine ⟨fun r => regValue_resetBlock State.reset, rfl, rfl, fun _ => rfl, rfl, rfl, treeOk_resetBlock State.reset,
    ⟨State.reset_dmem_wf, fun c hc => ?_⟩, statusOk_resetBlock State.reset, resultsOk_resetBlock State.reset,
    fun op hop => ?_⟩
  · cases hc
  · cases hop

end Sys2Proof.Machine
end

section
/-! PROOFS. Which command reads which table: a command that does not read FREQ or NODE runs the same with another
content there, and keeps it (10_state.md R41, R43). -/

namespace Sys2Proof.Machine

/-! ### PACK and UNPACK read neither table -/

/-- The state with another FREQ and another NODE. -/
def State.withTables (s : State) (f : FreqTable) (nd : NodeTable) : State := { s with freq := f, node := nd }

theorem packEmpty_withTables (s : State) (f : FreqTable) (nd : NodeTable) :
    packEmpty (s.withTables f nd) = (packEmpty s).withTables f nd := by
  unfold packEmpty
  rw [apply_ite (fun t : State => t.withTables f nd)]
  rfl

theorem packText_withTables (s : State) (bs : List Byte) (f : FreqTable) (nd : NodeTable) :
    packText (s.withTables f nd) bs = (packText s bs).withTables f nd := by
  unfold packText
  rw [show (s.withTables f nd).code = s.code from rfl]
  cases payloadLength s.code bs 0 with
  | error j => rfl
  | ok l =>
    simp only [apply_ite (fun t : State => t.withTables f nd)]
    rfl

theorem packCleared_withTables (s : State) (f : FreqTable) (nd : NodeTable) :
    packCleared (s.withTables f nd) = (packCleared s).withTables f nd := by
  unfold packCleared
  rw [show (s.withTables f nd).rangeError = s.rangeError from rfl]
  cases s.rangeError with
  | some p => rfl
  | none =>
    dsimp only
    rw [apply_ite (fun t : State => t.withTables f nd), ← packEmpty_withTables, ← packText_withTables]
    rfl

theorem unpackPayload_withTables (s : State) (codes : List (Byte × BitString)) (bs : List Byte) (h : Nat)
    (f : FreqTable) (nd : NodeTable) :
    unpackPayload (s.withTables f nd) codes bs h = (unpackPayload s codes bs h).withTables f nd := by
  unfold unpackPayload
  dsimp only [State.withTables]
  cases (scan codes s.dstAddr.toNat s.dstCap.toNat (payloadOf bs h) 0
    { dmem := s.dmem, cand := [], start := 0, out := 0 }).2 <;> rfl

theorem unpackStream_withTables (s : State) (bs : List Byte) (h : Byte) (f : FreqTable) (nd : NodeTable) :
    unpackStream (s.withTables f nd) bs h = (unpackStream s bs h).withTables f nd := by
  unfold unpackStream
  rw [show (s.withTables f nd).code = s.code from rfl]
  simp only [apply_ite (fun t : State => t.withTables f nd)]
  cases firstDup (codeList s.code) with
  | some p => rfl
  | none =>
    dsimp only
    rw [unpackPayload_withTables]
    rfl

theorem unpackCleared_withTables (s : State) (f : FreqTable) (nd : NodeTable) :
    unpackCleared (s.withTables f nd) = (unpackCleared s).withTables f nd := by
  unfold unpackCleared
  rw [show (s.withTables f nd).rangeError = s.rangeError from rfl,
    show (s.withTables f nd).srcBytes = s.srcBytes from rfl]
  cases s.rangeError with
  | some p => rfl
  | none =>
    cases s.srcBytes with
    | nil => rfl
    | cons h bs => exact unpackStream_withTables s (h :: bs) h f nd

/-! ### Which command keeps and which reads FREQ and NODE -/

variable {s t : State} {i : Instr}

theorem exec_freq_eq (h : exec i s = .next t) (hcount : i ≠ .count) (hclear : i ≠ .clearFreq) : t.freq = s.freq := by
  obtain ⟨u, e, info, hc, rfl⟩ := exec_completes h
  cases hc with
  | count => exact absurd rfl hcount
  | clearFreq => exact absurd rfl hclear
  | _ => rfl

theorem exec_node_eq (h : exec i s = .next t) (hbuild : i ≠ .build) : t.node = s.node := by
  obtain ⟨u, e, info, hc, rfl⟩ := exec_completes h
  cases hc with
  | build => exact absurd rfl hbuild
  | _ => rfl

/-- A command that reads neither table runs the same whatever both hold. -/
theorem exec_withTables (h : exec i s = .next t) (hi : i ∈ [Instr.nop, .pack, .unpack, .clearCodes]) (f : FreqTable)
    (nd : NodeTable) : exec i (s.withTables f nd) = .next (t.withTables f nd) := by
  cases i with
  | nop => cases h; rfl
  | clearCodes => cases h; rfl
  | pack =>
    cases h
    exact congrArg Host.Outcome.next (packCleared_withTables s.clearResults f nd)
  | unpack =>
    cases h
    exact congrArg Host.Outcome.next (unpackCleared_withTables s.clearResults f nd)
  | _ => simp at hi

/-- GENCODES reads NODE and not FREQ (43_code_table_gen.md R190). -/
theorem execGencodes_withFreq (h : execGencodes s = .next t) (f : FreqTable) :
    execGencodes { s with freq := f } = .next { t with freq := f } := by
  unfold execGencodes at h ⊢
  dsimp only
  split at h
  next hv =>
    rw [if_pos hv]
    cases hc : codesOfTree s.node s.root with
    | some c =>
      rw [hc] at h
      cases h
      rfl
    | none =>
      rw [hc] at h
      cases h
  next hv =>
    rw [if_neg hv]
    cases h
    rfl

/-- Only BUILD reads FREQ, and COUNT and CLEAR_FREQ write it (10_state.md R41). -/
theorem exec_withFreq (h : exec i s = .next t) (hbuild : i ≠ .build) (hcount : i ≠ .count) (hclear : i ≠ .clearFreq)
    (f : FreqTable) : exec i { s with freq := f } = .next { t with freq := f } := by
  have hnode := exec_node_eq h hbuild
  have hrun (hi : i ∈ [Instr.nop, .pack, .unpack, .clearCodes]) :
      exec i { s with freq := f } = .next { t with freq := f } := by
    have hw := exec_withTables h hi f s.node
    rwa [show t.withTables f s.node = { t with freq := f } by rw [← hnode]; rfl] at hw
  cases i with
  | build => exact absurd rfl hbuild
  | count => exact absurd rfl hcount
  | clearFreq => exact absurd rfl hclear
  | gencodes => exact execGencodes_withFreq h f
  | _ => exact hrun (by decide)

/-- COUNT reads the source bytes and not NODE. -/
theorem execCount_withNode (h : execCount s = .next t) (nd : NodeTable) :
    execCount { s with node := nd } = .next { t with node := nd } := by
  unfold execCount at h ⊢
  rw [show ({ s with node := nd } : State).srcInDmem = s.srcInDmem from rfl]
  split at h
  next hin =>
    rw [if_pos hin]
    cases h
    rfl
  next hin =>
    rw [if_neg hin]
    cases h
    rfl

/-- Only GENCODES reads NODE, and BUILD writes it (10_state.md R43). -/
theorem exec_withNode (h : exec i s = .next t) (hgen : i ≠ .gencodes) (hbuild : i ≠ .build) (nd : NodeTable) :
    exec i { s with node := nd } = .next { t with node := nd } := by
  have hrun (hi : i ∈ [Instr.nop, .pack, .unpack, .clearCodes]) (hfreq : t.freq = s.freq) :
      exec i { s with node := nd } = .next { t with node := nd } := by
    have hw := exec_withTables h hi s.freq nd
    rwa [show t.withTables s.freq nd = { t with node := nd } by rw [← hfreq]; rfl] at hw
  cases i with
  | gencodes => exact absurd rfl hgen
  | build => exact absurd rfl hbuild
  | count => exact execCount_withNode h nd
  | clearFreq => cases h; rfl
  | _ => exact hrun (by decide) (exec_freq_eq h (by decide) (by decide))

/-- A COUNT that succeeds overwrites FREQ (41_frequency_counter.md R151). -/
theorem execCount_of_ok (h : execCount s = .next t) (hok : t.status.errCode = .ok) (f : FreqTable) :
    execCount { s with freq := f } = .next t := by
  unfold execCount at h ⊢
  rw [show ({ s with freq := f } : State).srcInDmem = s.srcInDmem from rfl]
  split at h
  · cases h
    cases hok
  next hin =>
    rw [if_neg hin]
    exact h

/-- Settles O55: another FREQ or NODE commutes with the runs that do not read it, and BUILD and COUNT overwrite theirs. -/
theorem tablesAreReadOnlyByTheirUnits : Obligations.TablesAreReadOnlyByTheirUnits := by
  intro s t f nd
  refine ⟨?freq, rfl, fun h hok => execCount_of_ok h hok f, fun h => exec_freq_eq h (by decide) (by decide), ?node, rfl,
    fun h => exec_node_eq h (by decide)⟩
  case freq =>
    intro i hbuild hcount hclear h
    exact ⟨exec_withFreq h hbuild hcount hclear f, exec_freq_eq h hcount hclear⟩
  case node =>
    intro i hgen hbuild h
    exact ⟨exec_withNode h hgen hbuild nd, exec_node_eq h hbuild⟩

end Sys2Proof.Machine
end

section
/-! PROOFS. DMEM keeps its canonical form inside its bounds: what the scan of UNPACK, a drawn window, and so every step
write to it (20_memory.md R72, R89; 70_reset_and_hazards.md R341). -/

namespace Sys2Proof.Machine

open Sys2Proof.Safety

variable {s t u : State} {i : Instr} {e : ErrCode} {info : Word} {x : Turn}

/-- What every write of one byte inside the output window keeps, the scan keeps (45_bit_unpacker.md R249). -/
theorem scan_keeps {P : Memory → Prop} {codes : List (Byte × BitString)} {dst cap : Nat}
    (hP : ∀ m a v, dst ≤ a → a < dst + cap → P m → P (m.write a v)) (bits : BitString) (q : Nat) (w : ScanWork)
    (hout : w.out ≤ cap) (hw : P w.dmem) : P (scan codes dst cap bits q w).1.dmem := by
  induction bits generalizing q w with
  | nil => exact hw
  | cons b bits ih =>
    unfold scan
    cases matchCode codes (w.cand ++ [b]) with
    | some sym =>
      dsimp only
      split_ifs with hfull
      · exact hw
      · exact ih _ _ (by dsimp only; omega) (hP _ _ _ (by omega) (by omega) hw)
    | none =>
      dsimp only
      split_ifs
      · exact hw
      · exact ih _ _ hout hw

theorem scanSource_keeps {P : Memory → Prop}
    (hP : ∀ m a v, s.dstAddr.toNat ≤ a → a < s.dstAddr.toNat + s.dstCap.toNat → P m → P (m.write a v)) (h : Nat)
    (hs : P s.dmem) : P (s.scanSource h).1.dmem :=
  scan_keeps hP _ 0 _ (Nat.zero_le _) hs

/-- A window that holds a byte inside DMEM lies in DMEM as a whole (log 7). -/
theorem dstWindow_le (s : State) : s.dstWindow = 0 ∨ s.dstAddr.toNat + s.dstWindow ≤ 2 ^ s.aw := by
  unfold State.dstWindow
  omega

theorem dmemOk_iff (s : State) : DmemOk s ↔ s.dmem.wf ∧ s.dmem.Below (2 ^ s.aw) := Iff.rfl

theorem dmemOk_putDmem (hs : DmemOk s) {a : Nat} (ha : a < 2 ^ s.aw) (b : Byte) :
    DmemOk { s with dmem := s.dmem.write a b } := by
  obtain ⟨hwf, hbelow⟩ := (dmemOk_iff s).mp hs
  exact ⟨Memory.write_wf hwf a b, Memory.write_below hbelow b ha⟩

/-- A reset draws bytes inside DMEM only (70_reset_and_hazards.md R341, log 7). -/
theorem dmemOk_resetBlock (hs : DmemOk s) : DmemOk s.resetBlock := by
  obtain ⟨hwf, hbelow⟩ := (dmemOk_iff s).mp hs
  have haw : s.resetBlock.aw = s.aw := rfl
  rw [dmemOk_iff, haw]
  dsimp only [State.resetBlock]
  split_ifs
  · refine ⟨Memory.drawWindow_wf _ hwf _ _, ?_⟩
    obtain hzero | hle := dstWindow_le s
    · rw [hzero]
      exact hbelow
    · exact Memory.drawWindow_below _ hbelow _ hle
  · exact ⟨hwf, hbelow⟩

theorem dmemOk_powerOn (s : State) : DmemOk s.powerOn := ⟨List.Pairwise.nil, fun c hc => by cases hc⟩

theorem Completes.dmemOk (h : Completes s i u e info) (hs : DmemOk s) : DmemOk u := by
  obtain ⟨hwf, hbelow⟩ := (dmemOk_iff s).mp hs
  cases h with
  | packMarker hr hcap =>
    obtain ⟨-, hdst, -⟩ := (rangeError_eq_none_iff s).mp hr
    have hcap' : ¬ s.dstCap.toNat < 1 := hcap
    exact ⟨Memory.write_wf hwf _ _, Memory.write_below hbelow _ (by omega)⟩
  | packStream hr _ hcap =>
    obtain ⟨-, hdst, -⟩ := (rangeError_eq_none_iff s).mp hr
    refine ⟨Memory.writeBytes_wf _ hwf _, Memory.writeBytes_below _ hbelow ?_⟩
    rw [length_bitsBytes, State.clearResults_dstAddr]
    omega
  | unpackScan hr _ hw =>
    obtain ⟨-, hdst, -⟩ := (rangeError_eq_none_iff s).mp hr
    subst hw
    exact ⟨scanSource_keeps (P := Memory.wf) (fun m a v _ _ hm => Memory.write_wf hm a v) _ hwf,
      scanSource_keeps (P := (Memory.Below · (2 ^ s.aw))) (fun m a v _ ha hm => Memory.write_below hm v (by omega)) _
        hbelow⟩
  | _ => exact hs

theorem Moves.dmemOk (h : Moves s x t) (hs : DmemOk s) : DmemOk t := by
  cases h with
  | putReg _ r => cases r <;> exact hs
  | putDmem _ ha b => exact dmemOk_putDmem hs ha b
  | exec _ _ ht =>
    obtain ⟨u, e, info, hc, rfl⟩ := ht
    exact hc.dmemOk hs
  | reset => exact dmemOk_resetBlock hs
  | powerOn => exact dmemOk_powerOn s
  | _ => exact hs

/-- Settles O48: PACK and UNPACK write inside the destination their range checks passed, the Host inside its port, and a
reset inside the window cut at 2^AW. -/
theorem everyStepKeepsDmemInsideItsBounds : Obligations.EveryStepKeepsDmemInsideItsBounds := by
  intro s t hs h
  obtain ⟨ts, ops, obs, k, hm⟩ := step_moves h
  exact hm.dmemOk hs

end Sys2Proof.Machine
end

section
/-! PROOFS. The register map: the offset of every register as a number, and the register that an offset reaches is the one
whose offset it is, bits 1:0 ignored (20_memory.md R70, R71; 10_state.md R46; 30_encoding.md R110). -/

namespace Sys2Proof.Machine

/-! ### Offsets as numbers -/

theorem toNat_regOffset_freq (x : Byte) : (regOffset (.freq x)).toNat = 0x0400 + 4 * x.toNat := by
  have hx := x.isLt
  simp only [regOffset, BitVec.toNat_ofNat]
  omega

theorem toNat_regOffset_node (k : NodeIdx) (w : NodeWord) :
    (regOffset (.node k w)).toNat = 0x2000 + 16 * k.val + 4 * nodeWordPlace w := by
  have hk := k.isLt
  have hw := nodeWordPlace_lt w
  simp only [regOffset, BitVec.toNat_ofNat]
  omega

theorem toNat_regOffset_codeLen (x : Byte) : (regOffset (.codeLen x)).toNat = 0x4000 + 64 * x.toNat := by
  have hx := x.isLt
  simp only [regOffset, BitVec.toNat_ofNat]
  omega

theorem toNat_regOffset_codeVal (x : Byte) (j : Fin 8) :
    (regOffset (.codeVal x j)).toNat = 0x4004 + 64 * x.toNat + 4 * j.val := by
  have hx := x.isLt
  have hj := j.isLt
  simp only [regOffset, BitVec.toNat_ofNat]
  omega

/-- Every register stands at a word boundary (20_memory.md R70). -/
theorem regOffset_aligned (r : RegName) : (regOffset r).toNat / 4 * 4 = (regOffset r).toNat := by
  cases r with
  | freq x => rw [toNat_regOffset_freq]; omega
  | node k w => rw [toNat_regOffset_node]; omega
  | codeLen x => rw [toNat_regOffset_codeLen]; omega
  | codeVal x j => rw [toNat_regOffset_codeVal]; omega
  | _ => decide

/-! ### The register that an offset reaches -/

theorem nodeWordPlace_nodeWordOf {j : Nat} (hj : j < 4) : nodeWordPlace (nodeWordOf j) = j := by
  interval_cases j <;> rfl

theorem regOffset_of_ctrlRegAt {n : Nat} {r : RegName} (h : ctrlRegAt n = some r) : (regOffset r).toNat = 4 * n := by
  unfold ctrlRegAt at h
  split at h <;> cases h <;> rfl

theorem regOffset_of_codeRegAt {x : Byte} {j : Nat} {r : RegName} (h : codeRegAt x j = some r) :
    (regOffset r).toNat = 0x4000 + 64 * x.toNat + 4 * j := by
  unfold codeRegAt at h
  split_ifs at h with hlen hval <;> cases h
  · rw [toNat_regOffset_codeLen, hlen, Nat.mul_zero, Nat.add_zero]
  · rw [toNat_regOffset_codeVal, Fin.val_ofNat]
    omega

/-- An offset that reaches a register is that register's offset, bits 1:0 ignored: one case per window of the map. -/
theorem regOffset_of_regAt {o : Offset} {r : RegName} (h : regAt o = some r) : (regOffset r).toNat = o.toNat / 4 * 4 := by
  unfold regAt at h
  dsimp only at h
  generalize o.toNat / 4 = n at h ⊢
  split_ifs at h with hctrl hgap hfreq hgap' hnode hgap'' hcode
  · rw [regOffset_of_ctrlRegAt h]
    omega
  · cases h
    rw [toNat_regOffset_freq, toNat_byteOf (by omega)]
    omega
  · cases h
    rw [toNat_regOffset_node, nodeWordPlace_nodeWordOf (Nat.mod_lt _ (by decide)), Fin.val_ofNat]
    omega
  · rw [regOffset_of_codeRegAt h, toNat_byteOf (by omega)]
    omega

theorem regAt_eq_some_iff (o : Offset) (r : RegName) : regAt o = some r ↔ o.toNat / 4 * 4 = (regOffset r).toNat := by
  refine ⟨fun h => (regOffset_of_regAt h).symm, fun h => ?_⟩
  have halign := regOffset_aligned r
  rw [← regAt_regOffset r]
  exact regAt_congr (by omega)

/-- Settles O4: the decoder of offsets inverts `regOffset` on every window of the map. -/
theorem registerMapIsOneToOne : Obligations.RegisterMapIsOneToOne := by
  refine ⟨regAt_eq_some_iff, by decide, toNat_regOffset_freq, fun k => ?_, toNat_regOffset_codeLen,
    toNat_regOffset_codeVal⟩
  simp only [toNat_regOffset_node, nodeWordPlace]
  omega

end Sys2Proof.Machine
end

section
/-! PROOFS. The Host's transactions on DMEM, and every transaction while BUSY = 1: which reads are free, and that writes
are dropped (20_memory.md R75 to R78; 10_state.md R31; 40_control.md R141 to R143). -/

namespace Sys2Proof.Machine

open Sys2Proof.Safety

/-! ### The DMEM port -/

theorem transact_wrDmem {s : State} {a : Nat} (ha : a < 2 ^ s.aw) (b : Byte) :
    s.transact (.wrDmem a b) = .next (s.hostWriteDmem a b) := if_pos ((inDmem_iff s a 1).mpr ha)

theorem transact_rdDmem {s : State} {a : Nat} (ha : a < 2 ^ s.aw) :
    s.transact (.rdDmem a) = .next (s.hostReadDmem a) := if_pos ((inDmem_iff s a 1).mpr ha)

/-- The port lacks the addresses at and above 2^AW (20_memory.md R75, log 14). -/
theorem not_inDmem_of_ge {s : State} {a : Nat} (ha : 2 ^ s.aw ≤ a) : ¬ s.inDmem a 1 = true := by
  rw [inDmem_iff]
  omega

theorem hostWriteDmem_of_idle {s : State} (hb : s.status.busy = false) (a : Nat) (b : Byte) :
    s.hostWriteDmem a b = { s with dmem := s.dmem.write a b } := by
  unfold State.hostWriteDmem
  rw [hb]
  rfl

/-- A read of DMEM while BUSY = 0 returns the byte (40_control.md R143). -/
theorem transact_rdDmem_of_idle {s : State} (hb : s.status.busy = false) {a : Nat} (ha : a < 2 ^ s.aw) :
    s.transact (.rdDmem a) = .next (s.observe (.dmem a (s.memRead a))) := by
  rw [transact_rdDmem ha, hostReadDmem_of_idle hb]

theorem memRead_write (s : State) (a x : Nat) (v : Byte) :
    ({ s with dmem := s.dmem.write a v } : State).memRead x = if x = a then v else s.memRead x := by
  unfold State.memRead
  dsimp only
  rw [Memory.find_write]
  split_ifs <;> rfl

/-- Settles O18: the write is `Memory.write`, whose read-back is `memRead_write`. -/
theorem dmemByteReadsBack : Obligations.DmemByteReadsBack := by
  refine fun s a v => ⟨fun hb ha => ⟨{ s with dmem := s.dmem.write a v }, ?_, rfl, fun x => memRead_write s a x v, ?_⟩,
    fun ha => ⟨if_neg (not_inDmem_of_ge ha), if_neg (not_inDmem_of_ge ha)⟩⟩
  · rw [transact_wrDmem ha, hostWriteDmem_of_idle hb]
  · refine (transact_rdDmem_of_idle (s := { s with dmem := s.dmem.write a v }) hb ha).trans ?_
    rw [memRead_write, if_pos rfl]
    rfl

/-! ### Writes while BUSY = 1 -/

theorem hostWriteReg_of_busy {s : State} (hb : s.status.busy = true) (o : Offset) (v : Word) :
    s.hostWriteReg o v = s.dropWrite := if_pos hb

theorem hostWriteDmem_of_busy {s : State} (hb : s.status.busy = true) (a : Nat) (b : Byte) :
    s.hostWriteDmem a b = s.dropWrite := if_pos hb

/-- Settles O10: both writes are `dropWrite`, which sets BUSY_WR. -/
theorem writesWhileBusyAreDropped : Obligations.WritesWhileBusyAreDropped := by
  refine fun s hb => ⟨fun o v => ?_, fun a b ha => ?_⟩
  · show Host.Outcome.next (s.hostWriteReg o v) = _
    rw [hostWriteReg_of_busy hb]
    rfl
  · rw [transact_wrDmem ha, hostWriteDmem_of_busy hb]
    rfl

/-! ### Reads while BUSY = 1 -/

/-- The volatile words are those that 20_memory.md R78 does not list as stable. -/
theorem volatileReg_eq_false_iff (r : RegName) : volatileReg r = false ↔ r ∈ stableRegs := by
  cases r <;> simp [volatileReg, stableRegs]

theorem readIsFree_of_reg (s : State) {o : Offset} {r : RegName} (hr : regAt o = some r) :
    s.readIsFree o = (s.status.busy && volatileReg r) := by
  unfold State.readIsFree
  rw [hr]

theorem readIsFree_of_reserved (s : State) {o : Offset} (hr : regAt o = none) : s.readIsFree o = false := by
  unfold State.readIsFree
  rw [hr, Bool.and_false]

/-- A read of a defined word draws nothing. -/
theorem hostReadReg_of_defined {s : State} {o : Offset} (hf : s.readIsFree o = false) :
    s.hostReadReg o = s.observe (.reg o (s.readReg o)) := by
  unfold State.hostReadReg
  rw [hf]
  rfl

/-- A read of an undefined word returns the next free value and uses it up (20_memory.md R78, log 6). -/
theorem hostReadReg_of_free {s : State} {o : Offset} (hf : s.readIsFree o = true) :
    s.hostReadReg o = { s.observe (.reg o (Config.freeWord s.draws)) with draws := s.draws + 1 } := by
  unfold State.hostReadReg State.readReg
  rw [hf]
  rfl

theorem readReg_of_defined {s : State} {o : Offset} {r : RegName} (hr : regAt o = some r)
    (hf : s.readIsFree o = false) : s.readReg o = s.regValue r := by
  unfold State.readReg
  rw [hf, hr]
  rfl

theorem hostReadDmem_of_busy {s : State} (hb : s.status.busy = true) (a : Nat) :
    s.hostReadDmem a = { s.observe (.dmem a (Config.freeByte s.draws)) with draws := s.draws + 1 } := by
  unfold State.hostReadDmem State.readDmem
  rw [hb]
  rfl

/-- STATUS while a command is pending (20_memory.md R78). -/
theorem status_word_of_busy {s : State} (hs : StatusOk s) (hb : s.status.busy = true) :
    s.status.word.getLsbD 0 = true ∧ s.status.word.getLsbD 1 = false ∧ s.status.word.extractLsb' 8 8 = 0 := by
  obtain ⟨hpend, -⟩ := hs
  obtain ⟨hdone, herr⟩ := hpend hb
  refine ⟨by rw [status_word_busy, hb], ?_, by rw [Status.word_code, herr]; rfl⟩
  rw [Status.getLsbD_word, hdone]
  simp

/-- Settles O17: a read is free exactly at a volatile word or at DMEM, and each free read passes the counter of draws. -/
theorem busyReadsOfVolatileStateAreFree : Obligations.BusyReadsOfVolatileStateAreFree := by
  refine fun s hb => ⟨fun o r hr hstable => ?_, fun o hr => ?_, fun hs => status_word_of_busy hs hb,
    fun o r hr hvol => ?_, fun a ha => ?_⟩
  · have hf : s.readIsFree o = false := by
      rw [readIsFree_of_reg s hr, (volatileReg_eq_false_iff r).mpr hstable, Bool.and_false]
    show Host.Outcome.next (s.hostReadReg o) = _
    rw [hostReadReg_of_defined hf, readReg_of_defined hr hf]
    rfl
  · show Host.Outcome.next (s.hostReadReg o) = _
    rw [hostReadReg_of_defined (readIsFree_of_reserved s hr), readReg_of_reserved hr]
    rfl
  · have hf : s.readIsFree o = true := by
      rw [readIsFree_of_reg s hr, hb, Bool.true_and]
      exact Bool.eq_true_of_not_eq_false (mt (volatileReg_eq_false_iff r).mp hvol)
    show Host.Outcome.next (s.hostReadReg o) = _
    rw [hostReadReg_of_free hf]
    rfl
  · rw [transact_rdDmem ha, hostReadDmem_of_busy hb]
    rfl

end Sys2Proof.Machine
end

section
/-! PROOFS. The decoder of command words: what it answers in terms of the fields OP and RSVD as numbers, its inverse, and
the words it rejects (30_encoding.md R100 to R105; 40_control.md R133). -/

namespace Sys2Proof.Machine

/-! ### The fields of a command word -/

theorem toNat_rsvdField (w : Word) : (rsvdField w).toNat = w.toNat / 16 := by
  have hw := w.isLt
  rw [rsvdField, BitVec.extractLsb'_toNat, Nat.shiftRight_eq_div_pow]
  omega

theorem toNat_opField (w : Word) : (opField w).toNat = w.toNat % 16 := by
  rw [opField, BitVec.extractLsb'_toNat, Nat.shiftRight_zero]

theorem rsvdField_eq_zero_iff (w : Word) : rsvdField w = 0 ↔ w.toNat / 16 = 0 := by
  rw [← toNat_rsvdField, ← BitVec.toNat_inj]
  rfl

/-! ### The opcode map -/

/-- The code of a command is its word, RSVD being 0 (30_encoding.md R104). -/
theorem toNat_of_instrOfOp {op : BitVec 4} {i : Instr} (h : instrOfOp op = some i) : op.toNat = (encode i).toNat := by
  unfold instrOfOp at h
  split at h <;> cases h <;> assumption

/-- The codes with no command are 0x8 to 0xF (30_encoding.md R104). -/
theorem instrOfOp_eq_none_iff (op : BitVec 4) : instrOfOp op = none ↔ 8 ≤ op.toNat := by
  revert op
  decide

/-! ### The decoder -/

theorem decode_of_rsvd_zero {w : Word} (h : w.toNat / 16 = 0) :
    decode w = (instrOfOp (opField w)).elim (.error .reservedOp) .ok := by
  unfold decode
  rw [if_neg (not_not.mpr ((rsvdField_eq_zero_iff w).mpr h))]
  cases instrOfOp (opField w) <;> rfl

theorem decode_of_rsvd_ne_zero {w : Word} (h : w.toNat / 16 ≠ 0) : decode w = .error .reservedBits :=
  if_pos (mt (rsvdField_eq_zero_iff w).mp h)

theorem decode_encode (i : Instr) : decode (encode i) = .ok i := by
  cases i <;> rfl

/-- A word that decodes to a command is that command's word: RSVD is 0 and OP is the command's code. -/
theorem eq_encode_of_decode {w : Word} {i : Instr} (h : decode w = .ok i) : w = encode i := by
  by_cases hr : w.toNat / 16 = 0
  · rw [decode_of_rsvd_zero hr] at h
    cases hop : instrOfOp (opField w) with
    | none => rw [hop] at h; cases h
    | some j =>
      rw [hop] at h
      cases h
      have hlow := toNat_of_instrOfOp hop
      rw [toNat_opField] at hlow
      exact BitVec.eq_of_toNat_eq (by omega)
  · rw [decode_of_rsvd_ne_zero hr] at h
    cases h

/-- Settles O2: `encode` is a right inverse by its eight cases, and a left inverse by the two fields of the word. -/
theorem decodeAndEncodeAreInverse : Obligations.DecodeAndEncodeAreInverse := by
  intro i w _
  exact ⟨eq_encode_of_decode, fun h => h ▸ decode_encode i⟩

theorem decode_eq_reservedBits_iff (w : Word) : decode w = .error .reservedBits ↔ w.toNat / 16 ≠ 0 := by
  refine ⟨fun h hr => ?_, decode_of_rsvd_ne_zero⟩
  rw [decode_of_rsvd_zero hr] at h
  cases hop : instrOfOp (opField w) <;> rw [hop] at h <;> cases h

theorem decode_eq_reservedOp_iff (w : Word) :
    decode w = .error .reservedOp ↔ w.toNat / 16 = 0 ∧ 8 ≤ w.toNat % 16 := by
  rw [← toNat_opField, ← instrOfOp_eq_none_iff]
  by_cases hr : w.toNat / 16 = 0
  · rw [decode_of_rsvd_zero hr]
    cases instrOfOp (opField w) <;> simp [hr]
  · rw [decode_of_rsvd_ne_zero hr]
    simp [hr]

/-- Settles O3, from the two rejections of the decoder. -/
theorem reservedWordsAreRejectedByName : Obligations.ReservedWordsAreRejectedByName :=
  fun w => ⟨decode_eq_reservedBits_iff w, decode_eq_reservedOp_iff w⟩

/-- Settles O1: the legal words by `decode_encode`, the others by the fields of the word. -/
theorem commandWordsDecodeAsTheMapSays : Obligations.CommandWordsDecodeAsTheMapSays := by
  refine ⟨decode_encode .nop, decode_encode .count, decode_encode .build, decode_encode .gencodes, decode_encode .pack,
    decode_encode .unpack, decode_encode .clearFreq, decode_encode .clearCodes, ?_, ?_, ?_, ?_⟩
  · exact (decode_eq_reservedOp_iff _).mpr (by decide)
  · exact (decode_eq_reservedOp_iff _).mpr (by decide)
  · exact decode_of_rsvd_ne_zero (by decide)
  · exact decode_of_rsvd_ne_zero (by decide)

/-! ### An illegal word -/

/-- The decoder rejects every word that is no legal command (30_encoding.md R101). -/
theorem decode_of_illegal {w : Word} (h : ¬ (w.extractLsb' 4 28 = 0 ∧ (w.extractLsb' 0 4).toNat ≤ 7)) :
    ∃ r, decode w = .error r := by
  by_cases hr : w.toNat / 16 = 0
  · have hop : ¬ w.toNat % 16 ≤ 7 := fun hle => h ⟨(rsvdField_eq_zero_iff w).mpr hr, (toNat_opField w).trans_le hle⟩
    exact ⟨_, (decode_eq_reservedOp_iff w).mpr ⟨hr, by omega⟩⟩
  · exact ⟨_, decode_of_rsvd_ne_zero hr⟩

/-- The Core completes a rejected word with E_ILLEGAL_CMD and the word (40_control.md R136). -/
theorem coreStep_of_rejected {s : State} (hb : s.status.busy = true) {r : Reject} (hd : decode s.pending = .error r) :
    coreStep s = .next (s.raise .illegalCmd s.pending) := by
  unfold coreStep
  rw [if_pos hb, hd]
  rfl

/-- Settles O7: the write issues the word, which the decoder rejects, so the Core raises the error. -/
theorem illegalWordCompletesWithItsError : Obligations.IllegalWordCompletesWithItsError := by
  intro s w hb hill
  have hwrite : s.hostWriteReg 0x0008 w = s.issue w := hostWriteReg_of_idle hb (regAt_regOffset .cmd) w
  obtain ⟨r, hr⟩ := decode_of_illegal hill
  rw [hwrite]
  exact ⟨rfl, coreStep_of_rejected (s := s.issue w) rfl hr⟩

end Sys2Proof.Machine
end

section
/-! PROOFS. The frames of the commands: which fields a completion may change, and which bytes of DMEM PACK and UNPACK may
write (30_encoding.md R103; 20_memory.md R90; 44_bit_packer.md R219; 45_bit_unpacker.md R253). -/

namespace Sys2Proof.Machine

open Sys2Proof.Safety

variable {s t u : State} {i : Instr} {e : ErrCode} {info : Word}

/-! ### The commands that write no DMEM byte -/

theorem nop_frame (h : exec .nop s = .next t) : t = ended s t.status.errCode t.errInfo := by
  obtain ⟨u, e, info, hc, rfl⟩ := exec_completes h
  cases hc
  rfl

theorem freqCommand_frame (hi : i = .count ∨ i = .clearFreq) (h : exec i s = .next t) :
    t = { ended s t.status.errCode t.errInfo with freq := t.freq } := by
  obtain ⟨u, e, info, hc, rfl⟩ := exec_completes h
  obtain rfl | rfl := hi <;> cases hc <;> rfl

theorem codeCommand_frame (hi : i = .gencodes ∨ i = .clearCodes) (h : exec i s = .next t) :
    t = { ended s t.status.errCode t.errInfo with code := t.code } := by
  obtain ⟨u, e, info, hc, rfl⟩ := exec_completes h
  obtain rfl | rfl := hi <;> cases hc <;> rfl

/-- Settles O25: each completion of `Completes` names the tables it replaces. -/
theorem registerCommandsKeepTheRest : Obligations.RegisterCommandsKeepTheRest := by
  intro s t
  refine ⟨nop_frame, freqCommand_frame (.inl rfl), freqCommand_frame (.inr rfl), codeCommand_frame (.inl rfl),
    codeCommand_frame (.inr rfl), fun h => ?_⟩
  obtain ⟨u, e, info, hc, rfl⟩ := exec_completes h
  cases hc
  rfl

/-! ### The bytes that PACK and UNPACK write -/

theorem SameOutside.of_dmem_eq (hm : t.dmem = s.dmem) (hp : t.powerOns = s.powerOns) (a n : Nat) :
    SameOutside s t a n := fun x _ => memRead_congr hm hp x

/-- Where DMEM lists the same bytes outside a window, it reads the same there. -/
theorem SameOutside.of_find {a n : Nat} (hp : t.powerOns = s.powerOns)
    (h : ∀ x, (x < a ∨ a + n ≤ x) → t.dmem.find x = s.dmem.find x) : SameOutside s t a n := by
  intro x hx
  unfold State.memRead
  rw [h x hx, hp]

theorem find_writeBytes_outside (m : Memory) {a x : Nat} (vs : List Byte) (hx : x < a ∨ a + vs.length ≤ x) :
    (m.writeBytes a vs).find x = m.find x := by
  rw [Memory.find_writeBytes, dif_neg (by omega)]

/-- The scan only adds to its output. -/
theorem le_scan_out (codes : List (Byte × BitString)) (dst cap : Nat) (bits : BitString) (q : Nat) (w : ScanWork)
    {n : Nat} (hw : n ≤ w.out) : n ≤ (scan codes dst cap bits q w).1.out := by
  induction bits generalizing q w with
  | nil => exact hw
  | cons b bits ih =>
    unfold scan
    cases matchCode codes (w.cand ++ [b]) with
    | some sym =>
      dsimp only
      split_ifs
      · exact hw
      · exact ih _ _ (Nat.le_succ_of_le hw)
    | none =>
      dsimp only
      split_ifs
      · exact hw
      · exact ih _ _ hw

/-- The scan writes its output bytes and no other: what lies outside them at its end is as it was (45_bit_unpacker.md
R253). -/
theorem scan_find_outside (codes : List (Byte × BitString)) (dst cap : Nat) (bits : BitString) (q : Nat) (w : ScanWork)
    {x : Nat} (hx : x < dst ∨ dst + (scan codes dst cap bits q w).1.out ≤ x) :
    (scan codes dst cap bits q w).1.dmem.find x = w.dmem.find x := by
  induction bits generalizing q w with
  | nil => rfl
  | cons b bits ih =>
    unfold scan at hx ⊢
    cases hm : matchCode codes (w.cand ++ [b]) with
    | some sym =>
      rw [hm] at hx
      dsimp only at hx ⊢
      split_ifs at hx ⊢
      · rfl
      · have hout : w.out + 1 ≤ _ :=
          le_scan_out codes dst cap bits (q + 1) ⟨w.dmem.write (dst + w.out) sym, [], q + 1, w.out + 1⟩ le_rfl
        rw [ih _ _ hx, Memory.find_write_other _ _ (by omega)]
    | none =>
      rw [hm] at hx
      dsimp only at hx ⊢
      split_ifs at hx ⊢
      · rfl
      · exact ih _ _ hx

/-- PACK and UNPACK complete with the result registers and DMEM replaced only. -/
theorem Completes.stream_frame (h : Completes s i u e info) (hi : i = .pack ∨ i = .unpack) :
    u = { s with outLen := u.outLen, pad := u.pad, payloadBits := u.payloadBits, dmem := u.dmem } := by
  obtain rfl | rfl := hi <;> cases h <;> rfl

/-- PACK and UNPACK write at most DST_CAP bytes (44_bit_packer.md R218, 45_bit_unpacker.md R249). -/
theorem Completes.outLen_le (h : Completes s i u e info) (hi : i = .pack ∨ i = .unpack) :
    u.outLen.toNat ≤ s.dstCap.toNat := by
  have hcap := s.dstCap.isLt
  cases h with
  | packRefused => exact Nat.zero_le _
  | packMarker _ hpos => exact Nat.not_lt.mp hpos
  | packStream _ _ hfit => exact (toNat_wordOf (hfit.trans_lt hcap)).trans_le hfit
  | unpackRefused => exact Nat.zero_le _
  | unpackMarker => exact Nat.zero_le _
  | unpackScan _ _ _ hfit => exact (toNat_wordOf (hfit.trans_lt hcap)).trans_le hfit
  | _ => simp at hi

/-- PACK and UNPACK write the OUT_LEN bytes from DST_ADDR on, and no other. -/
theorem Completes.sameOutside (h : Completes s i u e info) : SameOutside s u s.dstAddr.toNat u.outLen.toNat := by
  have hcap := s.dstCap.isLt
  cases h with
  | packMarker =>
    refine SameOutside.of_find rfl fun x hx => Memory.find_write_other _ _ ?_
    rw [show BitVec.toNat (1 : Word) = 1 from rfl] at hx
    omega
  | @packStream l _ _ hfit =>
    rw [State.putStream_outLen, toNat_wordOf (hfit.trans_lt hcap)]
    refine SameOutside.of_find rfl fun x hx => find_writeBytes_outside _ _ ?_
    rwa [length_bitsBytes]
  | unpackScan _ _ hw hfit =>
    rw [State.putScan_outLen, toNat_wordOf (hfit.trans_lt hcap)]
    subst hw
    exact SameOutside.of_find rfl fun x hx => scan_find_outside _ _ _ _ _ _ hx
  | _ => exact SameOutside.of_dmem_eq rfl rfl _ _

/-- Settles O26: the two facts of the completion, whose `raise` changes neither OUT_LEN nor DMEM. -/
theorem packAndUnpackKeepTheRest : Obligations.PackAndUnpackKeepTheRest := by
  intro i s t hi h
  obtain ⟨u, e, info, hc, rfl⟩ := exec_completes h
  refine ⟨?_, hc.outLen_le hi, hc.sameOutside⟩
  rw [hc.stream_frame hi]
  rfl

end Sys2Proof.Machine
end

section
/-! PROOFS. A pending command completes from every state that meets the tree invariant, so a WAIT ends (40_control.md R135;
43_code_table_gen.md R195; 70_reset_and_hazards.md R352). -/

namespace Sys2Proof.Machine

open Sys2Proof.Safety

variable {s t u : State} {i : Instr} {e : ErrCode} {info : Word}

/-! ### GENCODES walks every tree to its end -/

/-- A child of an internal node has a lower index, so `fuel` edges below a node of index less than `n + fuel` reach the
leaves, whose indices lie below `n` (43_code_table_gen.md R195). -/
theorem walk_isSome {nd : NodeTable} {n : Nat} {root : NodeIdx} (hshape : TreeShape nd n root) (fuel : Nat) (k : NodeIdx)
    (hfuel : k.val < n + fuel) (hk : k.val ≤ 2 * n - 2) (p : BitString) (codes : CodeTable) :
    ∃ codes', walk nd fuel k p codes = some codes' := by
  induction fuel generalizing k p codes with
  | zero =>
    obtain ⟨hleaf, -⟩ := hshape.leaf k hfuel
    exact ⟨_, if_pos hleaf⟩
  | succ fuel ih =>
    by_cases hlt : k.val < n
    · obtain ⟨hleaf, -⟩ := hshape.leaf k hlt
      exact ⟨_, if_pos hleaf⟩
    · obtain ⟨hleaf, -, hl, hr, -⟩ := hshape.internal k (Nat.not_lt.mp hlt) hk
      have hl' : (nd.entry k).left.val < k.val := hl
      have hr' : (nd.entry k).right.val < k.val := hr
      obtain ⟨c₁, hleft⟩ := ih (nd.entry k).left (by omega) (by omega) (p ++ [false]) codes
      obtain ⟨c₂, hright⟩ := ih (nd.entry k).right (by omega) (by omega) (p ++ [true]) c₁
      refine ⟨c₂, ?_⟩
      rw [walk, hleaf, hleft]
      exact hright

/-- The walk of a tree that BUILD leaves passes at most 255 edges (43_code_table_gen.md R195). -/
theorem codesOfTree_isSome {nd : NodeTable} {n : Nat} {root : NodeIdx} (hshape : TreeShape nd n root) :
    ∃ codes, codesOfTree nd root = some codes := by
  have hroot := hshape.root_eq
  have hle := hshape.leaves_le
  have hpos := hshape.leaves_pos
  unfold codesOfTree
  split_ifs
  · exact ⟨_, rfl⟩
  · exact walk_isSome hshape Config.maxCodeLen root (by unfold Config.maxCodeLen; omega) (by omega) [] CodeTable.zero

theorem execGencodes_next (hs : TreeOk s) : ∃ t, execGencodes s = .next t := by
  obtain ⟨htree, -⟩ := hs
  unfold execGencodes
  split_ifs with hv
  · obtain ⟨hshape, -⟩ := htree hv
    obtain ⟨codes, hcodes⟩ := codesOfTree_isSome hshape
    rw [hcodes]
    exact ⟨_, rfl⟩
  · exact ⟨_, rfl⟩

/-- Every command completes from a state that meets the tree invariant. -/
theorem exec_next (hs : TreeOk s) (i : Instr) : ∃ t, exec i s = .next t := by
  by_cases hi : i = .gencodes
  · subst hi
    exact execGencodes_next hs
  · exact exec_next_of_ne_gencodes i hi s

/-! ### The Core's step -/

/-- A command leaves the Host's program and the turns alone. -/
theorem Completes.program_turns (h : Completes s i u e info) : u.program = s.program ∧ u.turns = s.turns := by
  cases h <;> exact ⟨rfl, rfl⟩

/-- The Core's step on a pending command completes it (40_control.md R134, R135), the Host's program and the turns being
kept. -/
theorem coreStep_completes (hs : TreeOk s) (hb : s.status.busy = true) :
    ∃ t, coreStep s = .next t ∧ t.status.busy = false ∧ t.status.done = true ∧ t.program = s.program ∧
      t.turns = s.turns := by
  cases hd : decode s.pending with
  | error r => exact ⟨_, coreStep_of_rejected hb hd, rfl, rfl, rfl, rfl⟩
  | ok i =>
    obtain ⟨t, ht⟩ := exec_next hs i
    obtain ⟨u, e, info, hc, rfl⟩ := exec_completes ht
    obtain ⟨hprogram, hturns⟩ := hc.program_turns
    refine ⟨u.raise e info, ?_, rfl, rfl, hprogram, hturns⟩
    unfold coreStep
    rw [if_pos hb, hd]
    exact ht

/-! ### Steps where no turn is prescribed -/

theorem State.setTurns_nil (h : s.turns = []) : s.setTurns [] = s := by
  unfold State.setTurns
  rw [← h]

/-- Where no turn is prescribed the Core moves while BUSY = 1 (log 4). -/
theorem step_of_busy (hturns : s.turns = []) (hb : s.status.busy = true) : step s = coreStep s := by
  unfold step nextTurn
  rw [hturns, hb]
  exact congrArg coreStep (State.setTurns_nil hturns)

/-- Where no turn is prescribed the Host moves while BUSY = 0 (log 4). -/
theorem step_of_idle (hturns : s.turns = []) (hb : s.status.busy = false) : step s = hostStep s := by
  unfold step nextTurn
  rw [hturns, hb]
  exact congrArg hostStep (State.setTurns_nil hturns)

/-- A WAIT passes once the STATUS it reads has BUSY = 0 (30_encoding.md R114, log 5). -/
theorem hostStep_wait_of_idle {rest : List HostOp} (hprogram : s.program = .wait :: rest)
    (hb : s.status.busy = false) :
    hostStep s =
      .next (({ s with program := rest } : State).observe (.reg (regOffset .status) s.status.word)) := by
  obtain ⟨hnil, -⟩ | ⟨x, ops, hbus, -⟩ | ⟨ops, -, hbusy, -⟩ | ⟨ops, hwait, -, hstep⟩ := hostStep_eq s
  · cases hprogram.symm.trans hnil
  · cases hprogram.symm.trans hbus
  · exact absurd (hb.symm.trans hbusy) Bool.false_ne_true
  · cases hprogram.symm.trans hwait
    exact hstep

/-- Settles O56: the Core's step completes whatever is pending, and the Host's step then finds BUSY = 0. -/
theorem waitEndsAfterTheCoreStep : Obligations.WaitEndsAfterTheCoreStep := by
  intro s rest htree hb hturns hprogram
  obtain ⟨t, hstep, hidle, hdone, hprogram', hturns'⟩ := coreStep_completes htree hb
  have hwait : t.program = .wait :: rest := hprogram'.trans hprogram
  have hpoll := (step_of_idle (hturns'.trans hturns) hidle).trans (hostStep_wait_of_idle hwait hidle)
  exact ⟨t, _, (step_of_busy hturns hb).trans hstep, hidle, hdone, hwait, hpoll, rfl, rfl⟩

end Sys2Proof.Machine
end

section
/-! PROOFS. LOADCODE: the nine register writes, run by an idle machine, leave in the CODE entry the length and the eight
words of the code's value (30_encoding.md R109, R114; 10_state.md R46). -/

namespace Sys2Proof.Machine

open Sys2Proof.Safety

/-! ### The words of a VAL field -/

theorem getLsbD_setValWord_other (v : CodeVal) {j k : Fin 8} (h : k ≠ j) (w : Word) {i : Nat} (hi : i < 32) :
    (setValWord v j w).getLsbD (32 * k.val + i) = v.getLsbD (32 * k.val + i) := by
  have hk := k.isLt
  have hne : k.val ≠ j.val := fun e => h (Fin.ext e)
  have hlt : 32 * k.val + i < 256 := by omega
  rw [setValWord, BitVec.getLsbD_or, BitVec.getLsbD_and, BitVec.getLsbD_not, BitVec.getLsbD_shiftLeft,
    BitVec.getLsbD_shiftLeft, BitVec.getLsbD_setWidth, BitVec.getLsbD_setWidth]
  obtain hbelow | habove : 32 * k.val + i < 32 * j.val ∨ 32 ≤ 32 * k.val + i - 32 * j.val := by omega
  · simp [hbelow, hlt]
  · rw [BitVec.getLsbD_of_ge _ _ habove, BitVec.getLsbD_of_ge w _ habove]
    simp [hlt]

/-- A write of one word of VAL keeps the others (20_memory.md R79). -/
theorem valWord_setValWord_other (v : CodeVal) {j k : Fin 8} (h : k ≠ j) (w : Word) :
    valWord (setValWord v j w) k = valWord v k := by
  refine BitVec.eq_of_getLsbD_eq fun i hi => ?_
  rw [valWord, valWord, BitVec.getLsbD_extractLsb', BitVec.getLsbD_extractLsb', getLsbD_setValWord_other v h w hi]

/-- The eight words determine a VAL field. -/
theorem codeVal_ext {v v' : CodeVal} (h : ∀ j, valWord v j = valWord v' j) : v = v' := by
  refine BitVec.eq_of_getLsbD_eq fun i hi => ?_
  have hword := congrArg (BitVec.getLsbD · (i % 32)) (h ⟨i / 32, by omega⟩)
  simpa [valWord, Nat.mod_lt, Nat.div_add_mod] using hword

/-- A VAL field with the words `js` of `v'` written into it, one after the other. -/
def setValWords (v v' : CodeVal) (js : List (Fin 8)) : CodeVal := js.foldl (fun u j => setValWord u j (valWord v' j)) v

/-- A word once written stays: the later writes are of other words, or of the same value. -/
theorem valWord_setValWords {v v' : CodeVal} {js : List (Fin 8)} {k : Fin 8}
    (h : k ∈ js ∨ valWord v k = valWord v' k) : valWord (setValWords v v' js) k = valWord v' k := by
  induction js generalizing v with
  | nil => simpa [setValWords] using h
  | cons j js ih =>
    refine ih ?_
    by_cases hkj : k = j
    · subst hkj
      exact .inr (valWord_setValWord _ _ _)
    · rw [valWord_setValWord_other v hkj]
      simpa [hkj] using h

/-- Once all eight words are written nothing of the old value is left. -/
theorem setValWords_all (v v' : CodeVal) : setValWords v v' (List.finRange 8) = v' :=
  codeVal_ext fun j => valWord_setValWords (.inl (List.mem_finRange j))

/-! ### The entry of a code -/

theorem low_byte_wordOf (n : Nat) : (wordOf n).extractLsb' 0 8 = byteOf n := by
  refine BitVec.eq_of_toNat_eq ?_
  rw [BitVec.extractLsb'_toNat, Nat.shiftRight_zero]
  exact Nat.mod_mod_of_dvd n (by decide)

theorem bitsVal_lt (c : BitString) : bitsVal c < 2 ^ c.length := by
  have h := bitsVal_msbBits (bitsVal c) c.length
  rw [msbBits_bitsVal] at h
  exact h ▸ Nat.mod_lt _ (Nat.two_pow_pos _)

theorem codeWellFormed_iff (c : BitString) : codeWellFormed c = true ↔ 1 ≤ c.length ∧ c.length ≤ 255 := by
  rw [codeWellFormed, Bool.and_eq_true, decide_eq_true_eq, decide_eq_true_eq]
  rfl

section

variable {c : BitString} (hc : codeWellFormed c = true)
include hc

theorem CodeEntry.toNat_len_ofBits : (CodeEntry.ofBits c).len.toNat = c.length := by
  obtain ⟨-, hle⟩ := (codeWellFormed_iff c).mp hc
  exact toNat_byteOf (by omega)

theorem CodeEntry.toNat_val_ofBits : (CodeEntry.ofBits c).val.toNat = bitsVal c := by
  obtain ⟨-, hle⟩ := (codeWellFormed_iff c).mp hc
  exact Nat.mod_eq_of_lt ((bitsVal_lt c).trans_le (Nat.pow_le_pow_right (by decide) (by omega)))

/-- The entry of a code holds the code (30_encoding.md R109). -/
theorem codeOf_of_entry {t : CodeTable} {x : Byte} (h : entryOf t x = CodeEntry.ofBits c) : codeOf t x = some c := by
  obtain ⟨hpos, -⟩ := (codeWellFormed_iff c).mp hc
  have hlen := CodeEntry.toNat_len_ofBits hc
  rw [codeOf_eq_some_iff, h, CodeEntry.bits_eq_iff, hlen, CodeEntry.toNat_val_ofBits hc, Nat.mod_eq_of_lt (bitsVal_lt c)]
  refine ⟨fun hzero => ?_, rfl, rfl⟩
  rw [hzero] at hlen
  exact absurd hlen (Nat.ne_of_lt hpos)

/-- The bits of VAL at and above LEN are 0 (30_encoding.md R109). -/
theorem valTrimmed_ofBits : ValTrimmed (CodeEntry.ofBits c) := by
  unfold ValTrimmed
  rw [CodeEntry.toNat_len_ofBits hc, CodeEntry.toNat_val_ofBits hc]
  exact bitsVal_lt c

end

/-! ### Runs of register writes -/

theorem run_succ {M : Host.Core} {s t : M.State} (h : M.step s = .next t) (k : Nat) : M.run (k + 1) s = M.run k t := by
  rw [Host.Core.run, h]

/-- The state with the program `ops` and the CODE entry `e` at `x`: what a run of writes to that entry changes. -/
def State.withEntry (s : State) (ops : List HostOp) (x : Byte) (e : CodeEntry) : State :=
  { s with program := ops, code := setEntry s.code x e }

variable {s : State} {x : Byte} {e : CodeEntry} {rest : List HostOp}

theorem setEntry_setEntry {α : Type} (t : Vector α 256) (x : Byte) (v v' : α) :
    setEntry (setEntry t x v) x v' = setEntry t x v' := by
  simp [setEntry]

theorem setEntry_entryOf {α : Type} (t : Vector α 256) (x : Byte) : setEntry t x (entryOf t x) = t := by
  simp [setEntry, entryOf, Vector.get_eq_getElem]

theorem withEntry_self (h : s.program = rest) : s.withEntry rest x (entryOf s.code x) = s := by
  unfold State.withEntry
  rw [setEntry_entryOf, ← h]

/-- The step of an idle machine whose program begins with a register write. -/
theorem step_wrOp {r : RegName} {v : Word} (hb : s.status.busy = false) (hturns : s.turns = [])
    (h : s.program = wrOp r v :: rest) : step s = .next (({ s with program := rest } : State).putReg r v) := by
  rw [step_of_idle hturns hb]
  unfold hostStep
  rw [h]
  exact congrArg Host.Outcome.next (hostWriteReg_of_idle (s := { s with program := rest }) hb (regAt_regOffset r) v)

section

variable (hb : s.status.busy = false) (hturns : s.turns = [])
include hb hturns

theorem step_withEntry_codeLen (v : Word) :
    step (s.withEntry (wrOp (.codeLen x) v :: rest) x e) =
      .next (s.withEntry rest x { e with len := v.extractLsb' 0 8 }) := by
  refine (step_wrOp (s := s.withEntry _ x e) hb hturns rfl).trans ?_
  simp only [State.putReg, State.withEntry, entryOf_setEntry_same, setEntry_setEntry]

theorem step_withEntry_codeVal (j : Fin 8) (v : Word) :
    step (s.withEntry (wrOp (.codeVal x j) v :: rest) x e) =
      .next (s.withEntry rest x { e with val := setValWord e.val j v }) := by
  refine (step_wrOp (s := s.withEntry _ x e) hb hturns rfl).trans ?_
  simp only [State.putReg, State.withEntry, entryOf_setEntry_same, setEntry_setEntry]

/-- The writes of the words `js` of `v` to VAL of one entry. -/
theorem run_codeVals (v : CodeVal) (js : List (Fin 8)) :
    Host.Core.run core js.length (s.withEntry (js.map (fun j => wrOp (.codeVal x j) (valWord v j)) ++ rest) x e) =
      .next (s.withEntry rest x { e with val := setValWords e.val v js }) := by
  induction js generalizing e with
  | nil => rfl
  | cons j js ih => exact (run_succ (M := core) (step_withEntry_codeVal hb hturns j (valWord v j)) js.length).trans ih

/-- The nine transactions of LOADCODE put the entry of the code (30_encoding.md R114). -/
theorem run_loadCodeOps (c : BitString) :
    Host.Core.run core 9 (s.withEntry (loadCodeOps x c ++ rest) x e) =
      .next (s.withEntry rest x (CodeEntry.ofBits c)) := by
  have hvals := run_codeVals (x := x) (e := { e with len := (wordOf c.length).extractLsb' 0 8 }) (rest := rest) hb hturns
    (BitVec.ofNat 256 (bitsVal c)) (List.finRange 8)
  rw [setValWords_all, List.length_finRange] at hvals
  refine (run_succ (M := core) (step_withEntry_codeLen hb hturns (wordOf c.length)) 8).trans (hvals.trans ?_)
  rw [low_byte_wordOf]
  rfl

end

/-- Settles O59: the nine steps replace the entry of the symbol by that of the code. -/
theorem loadcodeStoresTheCode : Obligations.LoadcodeStoresTheCode := by
  intro s x c rest hc hb hturns hprogram
  have hentry : entryOf (setEntry s.code x (CodeEntry.ofBits c)) x = CodeEntry.ofBits c := entryOf_setEntry_same _ _ _
  have hrun := run_loadCodeOps (x := x) (e := entryOf s.code x) (rest := rest) hb hturns c
  rw [withEntry_self hprogram] at hrun
  refine ⟨_, hrun, rfl, codeOf_of_entry hc hentry, ?_, fun y hy => entryOf_setEntry_other _ _ hy⟩
  show ValTrimmed (entryOf (setEntry s.code x (CodeEntry.ofBits c)) x)
  rw [hentry]
  exact valTrimmed_ofBits hc

end Sys2Proof.Machine
end

section
/-! PROOFS. Whose turn a step is, what each agent does with it, and that no step stops the machine (40_control.md R130 to
R135; 60_exceptions.md R300; 20_memory.md R75; 43_code_table_gen.md R195). -/

namespace Sys2Proof.Machine

open Sys2Proof.Safety

variable {s t : State} {x : Turn}

/-! ### A step is the move of the agent whose turn it is -/

theorem step_of_core (h : (nextTurn s).1 = .core) : step s = coreStep (s.setTurns (nextTurn s).2) := by
  unfold step
  rw [h]
  rfl

theorem step_of_host (h : (nextTurn s).1 = .host) : step s = hostStep (s.setTurns (nextTurn s).2) := by
  unfold step
  rw [h]
  rfl

theorem step_of_powerOn (h : (nextTurn s).1 = .powerOn) : step s = .next (s.setTurns (nextTurn s).2).powerOn := by
  unfold step
  rw [h]
  rfl

/-- The Core executes the pending word where it is a command (40_control.md R132). -/
theorem coreStep_of_decoded {i : Instr} (hb : s.status.busy = true) (hd : decode s.pending = .ok i) :
    coreStep s = exec i s := by
  unfold coreStep
  rw [if_pos hb, hd]

/-- Settles O5: using up the turn changes neither BUSY nor PENDING. -/
theorem coreTurnRunsThePendingCommand : Obligations.CoreTurnRunsThePendingCommand :=
  fun s _ hturn hb hd => (step_of_core hturn).trans (coreStep_of_decoded (s := s.setTurns _) hb hd)

/-! ### The Host's items -/

theorem hostStep_nil (h : s.program = []) : hostStep s = .next s := by
  unfold hostStep
  rw [h]

theorem hostStep_bus {y : Transaction} {rest : List HostOp} (h : s.program = .bus y :: rest) :
    hostStep s = ({ s with program := rest } : State).transact y := by
  unfold hostStep
  rw [h]
  rfl

/-- A WAIT stays while the STATUS it reads has BUSY = 1 (30_encoding.md R114, log 5). -/
theorem hostStep_wait_of_busy {rest : List HostOp} (h : s.program = .wait :: rest) (hb : s.status.busy = true) :
    hostStep s = .next (s.observe (.reg (regOffset .status) s.status.word)) := by
  unfold hostStep State.hostOp
  rw [h, hostReadReg_status]
  dsimp only
  rw [readReg_status, status_word_busy, if_pos hb]

/-- Settles O6: the Host's step by the first item of its program. -/
theorem hostTurnRunsTheNextTransaction : Obligations.HostTurnRunsTheNextTransaction := by
  intro s rest hturn
  rw [step_of_host hturn]
  exact ⟨fun y h => hostStep_bus (s := s.setTurns _) h, fun h hb => hostStep_wait_of_busy (s := s.setTurns _) h hb,
    fun h hb => hostStep_wait_of_idle (s := s.setTurns _) h hb, fun h => hostStep_nil (s := s.setTurns _) h⟩

/-! ### Each agent's step ends in a next state -/

/-- A transaction that the ports can express is answered (20_memory.md R75). -/
theorem transact_next {y : Transaction} (h : y.wellFormed s.aw = true) : ∃ t, s.transact y = .next t := by
  cases y with
  | wrReg o v => exact ⟨_, rfl⟩
  | rdReg o => exact ⟨_, rfl⟩
  | wrDmem a b => exact ⟨_, transact_wrDmem (of_decide_eq_true h) b⟩
  | rdDmem a => exact ⟨_, transact_rdDmem (of_decide_eq_true h)⟩

theorem hostStep_next (h : ProgramOk s) : ∃ t, hostStep s = .next t := by
  obtain ⟨-, hstep⟩ | ⟨y, rest, hprogram, hstep⟩ | ⟨rest, -, -, hstep⟩ | ⟨rest, -, -, hstep⟩ := hostStep_eq s
  · exact ⟨_, hstep⟩
  · have hy : y.wellFormed s.aw = true := h (.bus y) (hprogram ▸ List.mem_cons_self)
    obtain ⟨t, ht⟩ := transact_next (s := { s with program := rest }) hy
    exact ⟨t, hstep.trans ht⟩
  · exact ⟨_, hstep⟩
  · exact ⟨_, hstep⟩

/-- The Core is idle, or completes what is pending (40_control.md R135). -/
theorem coreStep_next (hs : TreeOk s) : ∃ t, coreStep s = .next t := by
  cases hb : s.status.busy with
  | false => exact ⟨s, if_neg (Bool.eq_false_iff.mp hb)⟩
  | true =>
    obtain ⟨t, ht, -⟩ := coreStep_completes hs hb
    exact ⟨t, ht⟩

theorem safeStep_of_treeOk (hs : TreeOk s) (hp : ProgramOk s) : SafeStep s := by
  unfold SafeStep
  cases hturn : (nextTurn s).1 with
  | host =>
    rw [step_of_host hturn]
    exact hostStep_next (s := s.setTurns _) hp
  | core =>
    rw [step_of_core hturn]
    exact coreStep_next (s := s.setTurns _) hs
  | reset => exact ⟨_, step_of_reset hturn⟩
  | powerOn => exact ⟨_, step_of_powerOn hturn⟩

/-! ### The Host's program only gets shorter -/

/-- The block never writes the Host's program. -/
theorem Moves.program_eq (h : Moves s x t) : t.program = s.program := by
  cases h with
  | putReg _ r => cases r <;> rfl
  | exec _ _ ht =>
    obtain ⟨u, e, info, hc, rfl⟩ := ht
    obtain ⟨hprogram, -⟩ := hc.program_turns
    exact hprogram
  | _ => rfl

theorem transact_program {y : Transaction} (h : s.transact y = .next t) : t.program = s.program := by
  obtain ⟨o, v, -, rfl⟩ | ⟨o, -, rfl⟩ | ⟨a, b, -, ha, rfl⟩ | ⟨a, -, -, rfl⟩ := transact_cases h
  · exact (hostWriteReg_moves s o v).program_eq
  · rfl
  · exact (hostWriteDmem_moves ha b).program_eq
  · rfl

/-- The Host's step leaves what comes after its item, or the whole program where a WAIT stays. -/
theorem hostStep_program_suffix (h : hostStep s = .next t) : t.program <:+ s.program := by
  obtain ⟨-, hs⟩ | ⟨y, rest, hprogram, hs⟩ | ⟨rest, -, -, hs⟩ | ⟨rest, hprogram, -, hs⟩ := hostStep_eq s
  · cases hs.symm.trans h
    exact List.suffix_rfl
  · rw [transact_program (hs.symm.trans h), hprogram]
    exact List.suffix_cons _ _
  · cases hs.symm.trans h
    exact List.suffix_rfl
  · cases hs.symm.trans h
    rw [hprogram]
    exact List.suffix_cons _ _

theorem step_program_suffix (h : step s = .next t) : t.program <:+ s.program := by
  unfold step at h
  obtain ⟨-, h⟩ | ⟨-, h⟩ | ⟨-, rfl⟩ | ⟨-, rfl⟩ := takeTurn_cases h
  · exact hostStep_program_suffix (s := s.setTurns (nextTurn s).2) h
  · exact (coreStep_moves h).program_eq ▸ List.suffix_rfl
  · exact List.suffix_rfl
  · exact List.suffix_rfl

/-- No step adds an item to the program, and none changes AW. -/
theorem step_programOk (h : step s = .next t) (hp : ProgramOk s) : ProgramOk t := by
  intro op hop
  rw [step_aw h]
  exact hp op ((step_program_suffix h).subset hop)

/-- Settles O51: each agent's step ends in a next state, and what is left of the program was in it before. -/
theorem noStepStopsTheMachine : Obligations.NoStepStopsTheMachine :=
  fun _ hs hp => ⟨safeStep_of_treeOk hs hp, fun _ h => step_programOk h hp⟩

end Sys2Proof.Machine
end

section
/-! PROOFS. What the completion of a command writes and keeps, and what a Host write of one register keeps (40_control.md
R131, R134, R137, R140; 41_frequency_counter.md R152; 43_code_table_gen.md R192). -/

namespace Sys2Proof.Machine

open Sys2Proof.Safety

variable {s u : State} {i : Instr} {e : ErrCode} {info : Word}

/-! ### Completion -/

/-- No command but BUILD writes TREE_VALID (70_reset_and_hazards.md R354). -/
theorem Completes.treeValid_eq (h : Completes s i u e info) (hbuild : i ≠ .build) :
    u.status.treeValid = s.status.treeValid := by
  cases h with
  | build => exact absurd rfl hbuild
  | _ => rfl

/-- BUSY_WR, CMD, PENDING and IE are the Host's (30_encoding.md R103, log 11). -/
theorem Completes.control_eq (h : Completes s i u e info) :
    u.status.busyWr = s.status.busyWr ∧ u.cmd = s.cmd ∧ u.pending = s.pending ∧ u.ie = s.ie := by
  cases h <;> exact ⟨rfl, rfl, rfl, rfl⟩

/-- Settles O24: the completion is a `raise`, and what it keeps no command wrote before. -/
theorem everyCommandEndsInCompletion : Obligations.EveryCommandEndsInCompletion := by
  intro i s t h
  obtain ⟨u, e, info, hc, rfl⟩ := exec_completes h
  obtain ⟨-, hinfo⟩ := hc.code_info
  obtain ⟨hbusyWr, hcmd, hpending, hie⟩ := hc.control_eq
  exact ⟨rfl, rfl, hinfo, hbusyWr, hc.treeValid_eq, hcmd, hpending, hie⟩

/-- Settles O29: the three commands are one assignment and the completion. -/
theorem nopAndTheClearsComplete : Obligations.NopAndTheClearsComplete := by
  intro s
  refine ⟨rfl, ⟨_, rfl, entryOf_freqZero, rfl⟩, ⟨_, rfl, fun x => ?_, rfl⟩⟩
  rw [State.complete_code, entryOf_codeZero]
  exact ⟨rfl, rfl⟩

/-! ### A write of one register -/

/-- Settles O9: bits 1:0 of the offset are ignored, so the write reaches CMD. -/
theorem cmdWriteIssuesTheWord : Obligations.CmdWriteIssuesTheWord := by
  intro s o w ho
  refine ⟨fun hb => ?_, fun hb => ?_⟩
  · exact congrArg Host.Outcome.next (hostWriteReg_of_idle hb (regAt_of_mask (r := .cmd) ho) w)
  · exact congrArg Host.Outcome.next (hostWriteReg_of_busy hb o w)

/-- A part `f` that the new entry shares with the old one is the same in every entry of the table. -/
theorem entryOf_setEntry_agree {α β : Type} (f : α → β) {t : Vector α 256} {x : Byte} {v : α}
    (h : f v = f (entryOf t x)) (y : Byte) : f (entryOf (setEntry t x v) y) = f (entryOf t y) := by
  by_cases hy : y = x
  · rw [hy, entryOf_setEntry_same, h]
  · rw [entryOf_setEntry_other t v hy]

/-- A write of LEN keeps every other word of CODE (10_state.md R46). -/
theorem regValue_putReg_codeLen (s : State) (x : Byte) (v : Word) {r' : RegName} (h : r' ≠ .codeLen x) :
    (s.putReg (.codeLen x) v).regValue r' = s.regValue r' := by
  cases r' with
  | codeLen y =>
    have hy : y ≠ x := fun hyx => h (congrArg RegName.codeLen hyx)
    exact congrArg (·.len.setWidth 32) (entryOf_setEntry_other s.code _ hy)
  | codeVal y k =>
    refine entryOf_setEntry_agree (fun e : CodeEntry => valWord e.val k) ?_ y
    rfl
  | _ => rfl

/-- A write of one word of VAL keeps every other word of CODE (10_state.md R46, 20_memory.md R79). -/
theorem regValue_putReg_codeVal (s : State) (x : Byte) (j : Fin 8) (v : Word) {r' : RegName} (h : r' ≠ .codeVal x j) :
    (s.putReg (.codeVal x j) v).regValue r' = s.regValue r' := by
  cases r' with
  | codeLen y =>
    refine entryOf_setEntry_agree (fun e : CodeEntry => e.len.setWidth 32) ?_ y
    rfl
  | codeVal y k =>
    by_cases hk : k = j
    · subst hk
      have hy : y ≠ x := fun hyx => h (congrArg (RegName.codeVal · k) hyx)
      exact congrArg (valWord ·.val k) (entryOf_setEntry_other s.code _ hy)
    · exact entryOf_setEntry_agree (fun e : CodeEntry => valWord e.val k) (valWord_setValWord_other _ hk v) y
  | _ => rfl

/-- A write of one register keeps the word of every other one: a register is a field of its own, or a word of a table. -/
theorem regValue_putReg_other (s : State) {r r' : RegName} (v : Word) (hcmd : r ≠ .cmd) (h : r' ≠ r) :
    (s.putReg r v).regValue r' = s.regValue r' := by
  cases r with
  | cmd => exact absurd rfl hcmd
  | status => cases r' with | status => exact absurd rfl h | _ => rfl
  | irqEn => cases r' with | irqEn => exact absurd rfl h | _ => rfl
  | srcAddr => cases r' with | srcAddr => exact absurd rfl h | _ => rfl
  | srcLen => cases r' with | srcLen => exact absurd rfl h | _ => rfl
  | dstAddr => cases r' with | dstAddr => exact absurd rfl h | _ => rfl
  | dstCap => cases r' with | dstCap => exact absurd rfl h | _ => rfl
  | freq x =>
    cases r' with
    | freq y => exact entryOf_setEntry_other s.freq v fun hyx => h (congrArg RegName.freq hyx)
    | _ => rfl
  | codeLen x => exact regValue_putReg_codeLen s x v h
  | codeVal x j => exact regValue_putReg_codeVal s x j v h
  | _ => rfl

/-- Only CMD's write reaches the hidden state, and no register's write reaches DMEM. -/
theorem putReg_hidden (s : State) {r : RegName} (v : Word) (hcmd : r ≠ .cmd) :
    (s.putReg r v).pending = s.pending ∧ (s.putReg r v).pq = s.pq ∧ (s.putReg r v).dmem = s.dmem := by
  cases r with
  | cmd => exact absurd rfl hcmd
  | _ => exact ⟨rfl, rfl, rfl⟩

/-- Settles O14: while BUSY = 0 the write is the `putReg` of its register. -/
theorem writingOneRegisterLeavesTheOthers : Obligations.WritingOneRegisterLeavesTheOthers := by
  intro s r r' v hb hcmd hne
  rw [hostWriteReg_of_idle hb (regAt_regOffset r)]
  exact ⟨regValue_putReg_other s v hcmd hne, putReg_hidden s v hcmd⟩

end Sys2Proof.Machine
end

section
/-! PROOFS. COUNT: the counts it collects are occurrence counts, and what they add up to (41_frequency_counter.md R151,
R153). -/

namespace Sys2Proof.Machine

open Sys2Proof.Safety

variable {s : State}

/-! ### The counts of a byte sequence -/

theorem entryOf_bumpCount (f : Vector Nat 256) (b x : Byte) :
    entryOf (bumpCount f b) x = entryOf f x + if b = x then 1 else 0 := by
  unfold bumpCount
  by_cases h : b = x
  · subst h
    rw [entryOf_setEntry_same, if_pos rfl]
  · rw [entryOf_setEntry_other _ _ (Ne.symm h), if_neg h, Nat.add_zero]

/-- The loop of COUNT adds the occurrences of each symbol to the map it starts from. -/
theorem entryOf_foldl_bumpCount (bs : List Byte) (f : Vector Nat 256) (x : Byte) :
    entryOf (bs.foldl bumpCount f) x = entryOf f x + bs.count x := by
  induction bs generalizing f with
  | nil => rfl
  | cons b bs ih =>
    rw [List.foldl_cons, ih, entryOf_bumpCount, List.count_cons]
    simp only [beq_iff_eq]
    omega

@[simp] theorem entryOf_countBytes (bs : List Byte) (x : Byte) : entryOf (countBytes bs) x = bs.count x := by
  have hzero : entryOf (Vector.replicate 256 0) x = 0 := by simp [entryOf, Vector.get_eq_getElem]
  rw [countBytes, entryOf_foldl_bumpCount, hzero, Nat.zero_add]

@[simp] theorem entryOf_freqOfCounts (f : Vector Nat 256) (x : Byte) :
    entryOf (freqOfCounts f) x = wordOf (entryOf f x) := by
  simp [entryOf, freqOfCounts, Vector.get_eq_getElem]

/-- The counts of the source fit their words: there are at most SRC_LEN of them, and SRC_LEN is itself a word. -/
theorem toNat_countedFreq (s : State) (x : Byte) :
    (entryOf (freqOfCounts (countBytes s.srcBytes)) x).toNat = s.srcBytes.count x := by
  have hfits : s.srcBytes.count x < 2 ^ 32 := by
    calc s.srcBytes.count x ≤ s.srcBytes.length := List.count_le_length
      _ = s.srcLen.toNat := srcBytes_length s
      _ < 2 ^ 32 := s.srcLen.isLt
  rw [entryOf_freqOfCounts, entryOf_countBytes, toNat_wordOf hfits]

/-! ### COUNT -/

theorem srcInDmem_iff (s : State) : s.srcInDmem = true ↔ s.srcAddr.toNat + s.srcLen.toNat ≤ 2 ^ s.aw :=
  inDmem_iff s _ _

theorem exec_count_of_inDmem (h : s.srcAddr.toNat + s.srcLen.toNat ≤ 2 ^ s.aw) :
    exec .count s = .next { ended s .ok 0 with freq := freqOfCounts (countBytes s.srcBytes) } := by
  have hin := (srcInDmem_iff s).mpr h
  simp only [exec, execCount, hin]
  rfl

theorem exec_count_of_outside (h : 2 ^ s.aw < s.srcAddr.toNat + s.srcLen.toNat) :
    exec .count s = .next (ended s .bounds 0) := by
  have hin : ¬ s.srcInDmem = true := fun hin => absurd ((srcInDmem_iff s).mp hin) (Nat.not_le.mpr h)
  simp only [exec, execCount, hin]
  rfl

/-- Settles O30: FREQ is the loop's map, and that holds the occurrence counts of the source. -/
theorem countReplacesFreqWithOccurrences : Obligations.CountReplacesFreqWithOccurrences :=
  fun s => ⟨fun hin => ⟨_, exec_count_of_inDmem hin, toNat_countedFreq s, rfl⟩, exec_count_of_outside⟩

/-! ### The sum of the counts -/

theorem nodup_map_byteOf : ((List.range 256).map byteOf).Nodup := by
  refine List.Nodup.map_on (fun i hi j hj hij => ?_) List.nodup_range
  rw [← toNat_byteOf (List.mem_range.mp hi), hij, toNat_byteOf (List.mem_range.mp hj)]

theorem mem_map_byteOf (x : Byte) : x ∈ (List.range 256).map byteOf :=
  List.mem_map.mpr ⟨x.toNat, List.mem_range.mpr x.isLt, byteOf_toNat x⟩

/-- Every byte of a sequence is counted once, under its own symbol. -/
theorem sum_count_byteOf (bs : List Byte) : ((List.range 256).map fun n => bs.count (byteOf n)).sum = bs.length := by
  calc ((List.range 256).map fun n => bs.count (byteOf n)).sum
      = (((List.range 256).map byteOf).map bs.count).sum := by rw [List.map_map]; rfl
    _ = ∑ x ∈ ((List.range 256).map byteOf).toFinset, bs.count x := (List.sum_toFinset _ nodup_map_byteOf).symm
    _ = bs.length := by
      simpa only [Multiset.coe_count, Multiset.coe_card] using
        Multiset.sum_count_eq_card (m := (bs : Multiset Byte)) fun x _ => List.mem_toFinset.mpr (mem_map_byteOf x)

theorem mem_srcBytes (s : State) (x : Byte) :
    x ∈ s.srcBytes ↔ ∃ i < s.srcLen.toNat, s.memRead (s.srcAddr.toNat + i) = x := by
  simp [State.srcBytes, State.memBytes]

/-- Settles O31: ERRCODE 0 says that COUNT was not refused, so FREQ holds the occurrence counts of the source. -/
theorem countSumsToTheSourceLength : Obligations.CountSumsToTheSourceLength := by
  intro s t h hok
  obtain ⟨u, e, info, hc, rfl⟩ := exec_completes h
  cases hc with
  | countRefused hin => cases hok
  | count hin =>
    simp only [State.raise_freq, toNat_countedFreq]
    exact ⟨(sum_count_byteOf s.srcBytes).trans (srcBytes_length s), fun x => List.count_pos_iff.trans (mem_srcBytes s x)⟩

end Sys2Proof.Machine
end

section
/-! PROOFS. BUILD's results: the registers and leaves it leaves, and that every pass of its loop joins the two queued nodes
of least key (42_tree_builder.md R162 to R175). -/

namespace Sys2Proof.Machine

open Sys2Proof.Safety

/-! ### The order of keys -/

/-- key(k) = (NODE[k].W, k), in the lexicographic order of pairs (42_tree_builder.md R164). -/
def nodeKey (t : NodeTable) (k : NodeIdx) : ℕ ×ₗ ℕ := toLex ((t.entry k).w.toNat, k.val)

theorem keyBefore_iff (t : NodeTable) (a b : NodeIdx) : KeyBefore t a b ↔ nodeKey t a < nodeKey t b := by
  rw [nodeKey, nodeKey, Prod.Lex.toLex_lt_toLex, KeyBefore]

theorem keyLt_iff (t : NodeTable) (a b : NodeIdx) : keyLt t a b = true ↔ nodeKey t a < nodeKey t b := by
  simp [← keyBefore_iff, KeyBefore, keyLt, BitVec.lt_def, BitVec.toNat_inj]

theorem nodeKey_injective (t : NodeTable) : Function.Injective (nodeKey t) := fun _ _ h =>
  Fin.ext (Prod.mk.inj (toLex.injective h)).2

theorem leastKey_cons (t : NodeTable) (k j : NodeIdx) (js : List NodeIdx) :
    ∃ best, leastKey t k (j :: js) = leastKey t best js ∧ nodeKey t best ≤ nodeKey t k ∧ nodeKey t best ≤ nodeKey t j := by
  by_cases hlt : keyLt t j k = true
  · exact ⟨j, by simp [leastKey, hlt], ((keyLt_iff t j k).mp hlt).le, le_rfl⟩
  · exact ⟨k, by simp [leastKey, hlt], le_rfl, not_lt.mp (mt (keyLt_iff t j k).mpr hlt)⟩

theorem leastKey_le (t : NodeTable) {k i : NodeIdx} {ks : List NodeIdx} (hi : i ∈ k :: ks) :
    nodeKey t (leastKey t k ks) ≤ nodeKey t i := by
  induction ks generalizing k i with
  | nil => exact (congrArg (nodeKey t) (List.mem_singleton.mp hi)).ge
  | cons j js ih =>
    obtain ⟨best, hcons, hk, hj⟩ := leastKey_cons t k j js
    have hbest : nodeKey t (leastKey t best js) ≤ nodeKey t best := ih List.mem_cons_self
    rw [hcons]
    rcases List.mem_cons.mp hi with rfl | hi
    · exact hbest.trans hk
    rcases List.mem_cons.mp hi with rfl | hi
    · exact hbest.trans hj
    · exact ih (List.mem_cons_of_mem _ hi)

/-- EXTRACT_MIN takes out the one index of least key (42_tree_builder.md R165). -/
theorem extractMin_least {t : NodeTable} {pq pq' : List NodeIdx} {k : NodeIdx} (h : extractMin t pq = some (k, pq'))
    (hpq : pq.Nodup) : ∀ i ∈ pq', KeyBefore t k i := by
  intro i hi
  have hperm := extractMin_perm h
  obtain ⟨hk, -⟩ := List.nodup_cons.mp (hperm.nodup_iff.mp hpq)
  have hne : k ≠ i := fun he => hk (he ▸ hi)
  have hle : nodeKey t k ≤ nodeKey t i := by
    cases pq with
    | nil => cases h
    | cons j js =>
      have hmem := hperm.mem_iff.mpr (List.mem_cons_of_mem k hi)
      cases h
      exact leastKey_le t hmem
  exact (keyBefore_iff t k i).mpr (hle.lt_of_ne fun he => hne (nodeKey_injective t he))

/-- A pass of BUILD's loop merges the two queued indices of least key, the least first (42_tree_builder.md R168). -/
theorem mergeOnce_least {tb tb' : TreeWork} (h : mergeOnce tb = some tb') (hpq : tb.pq.Nodup) :
    ∃ a b pq, tb.pq.Perm (a :: b :: pq) ∧ tb' = mergeNodes tb pq a b ∧ KeyBefore tb.nodes a b ∧
      ∀ i ∈ pq, KeyBefore tb.nodes b i := by
  unfold mergeOnce at h
  split at h
  · cases h
  next a pq1 ha =>
    split at h
    · cases h
    next b pq2 hb =>
      cases h
      have hp1 := extractMin_perm ha
      have hp2 := extractMin_perm hb
      have hpq1 : pq1.Nodup := (List.nodup_cons.mp (hp1.nodup_iff.mp hpq)).2
      exact ⟨a, b, pq2, hp1.trans (hp2.cons a), rfl,
        extractMin_least ha hpq b (hp2.mem_iff.mpr List.mem_cons_self), extractMin_least hb hpq1⟩

/-! ### The nodes that wait when a node is made -/

/-- Internal node `k` of a tree of `n` leaves joins the two nodes of least key that wait when it is made, the least to the
left (42_tree_builder.md R165, R168). -/
def JoinsLeast (t : NodeTable) (n : Nat) (k : NodeIdx) : Prop :=
  ∃ a b : NodeIdx, t.entry k = mergedNode t a b ∧ QueuedAt t n k a ∧ QueuedAt t n k b ∧ KeyBefore t a b ∧
    ∀ i, QueuedAt t n k i → i ≠ a → i ≠ b → KeyBefore t b i

theorem queuedAt_congr {t t' : NodeTable} {n : Nat} {k : NodeIdx} (hold : ∀ j < k, t'.entry j = t.entry j)
    (i : NodeIdx) : QueuedAt t' n k i ↔ QueuedAt t n k i := by
  refine and_congr_right fun _ => forall_congr' fun j => forall_congr' fun _ => forall_congr' fun hj => ?_
  rw [hold j hj]

theorem keyBefore_congr {t t' : NodeTable} {a b : NodeIdx} (ha : t'.entry a = t.entry a) (hb : t'.entry b = t.entry b) :
    KeyBefore t' a b ↔ KeyBefore t a b := by
  unfold KeyBefore
  rw [ha, hb]

/-- Which nodes wait for node `k`, and their keys, depend on the entries older than `k` only, so `k` may be judged by any
table that agrees with NODE on these. -/
theorem joinsLeast_of_older {t t' : NodeTable} {n : Nat} {k a b : NodeIdx} (hold : ∀ j < k, t'.entry j = t.entry j)
    (hnew : t'.entry k = mergedNode t a b) (ha : QueuedAt t n k a) (hb : QueuedAt t n k b) (hab : KeyBefore t a b)
    (hrest : ∀ i, QueuedAt t n k i → i ≠ a → i ≠ b → KeyBefore t b i) : JoinsLeast t' n k := by
  have hea := hold a ha.1
  have heb := hold b hb.1
  refine ⟨a, b, ?_, (queuedAt_congr hold a).mpr ha, (queuedAt_congr hold b).mpr hb, (keyBefore_congr hea heb).mpr hab,
    fun i hi hia hib => ?_⟩
  · rw [hnew, mergedNode, mergedNode, hea, heb]
  · have hi := (queuedAt_congr hold i).mp hi
    exact (keyBefore_congr heb (hold i hi.1)).mpr (hrest i hi hia hib)

section Merge

variable {ls : List Node} {tb : TreeWork} {a b : NodeIdx} {pq : List NodeIdx} (h : Pass ls tb a b pq)
include h

theorem Pass.lt_newIdx_iff (i : NodeIdx) : i < tb.newIdx ↔ i.val < tb.next := by
  rw [Fin.lt_def, h.newIdx_val]

/-- The nodes that wait when a pass makes its node are those in the queue (42_tree_builder.md R166). -/
theorem Pass.queuedAt_newIdx_iff (i : NodeIdx) : QueuedAt tb.nodes ls.length tb.newIdx i ↔ i ∈ tb.pq := by
  refine ⟨fun ⟨hlt, hnone⟩ => ?_, fun hi => ⟨(h.lt_newIdx_iff i).mpr (h.inv.queued_lt i hi), fun k hge hk => ?_⟩⟩
  · by_contra hq
    obtain ⟨k, ⟨hge, hk, hc⟩, -⟩ := h.inv.one_parent i ((h.lt_newIdx_iff i).mp hlt) hq
    exact (not_isChild_iff _ _ _).mpr (hnone k hge ((h.lt_newIdx_iff k).mpr hk)) hc
  · exact (not_isChild_iff _ _ _).mp (h.inv.no_parent i hi k hge ((h.lt_newIdx_iff k).mp hk))

theorem Pass.joinsLeast_new (hab : KeyBefore tb.nodes a b) (hrest : ∀ i ∈ pq, KeyBefore tb.nodes b i) :
    JoinsLeast (mergeNodes tb pq a b).nodes ls.length tb.newIdx := by
  refine joinsLeast_of_older (fun j hj => entry_mergeNodes_old hj.ne) entry_mergeNodes_new
    ((h.queuedAt_newIdx_iff a).mpr ((h.mem_pq a).mpr (.inl rfl)))
    ((h.queuedAt_newIdx_iff b).mpr ((h.mem_pq b).mpr (.inr (.inl rfl)))) hab fun i hi hia hib => ?_
  have hmem := (h.mem_pq i).mp ((h.queuedAt_newIdx_iff i).mp hi)
  exact hrest i ((hmem.resolve_left hia).resolve_left hib)

theorem Pass.joinsLeast_old {k : NodeIdx} (hk : k.val < tb.next) (hj : JoinsLeast tb.nodes ls.length k) :
    JoinsLeast (mergeNodes tb pq a b).nodes ls.length k := by
  obtain ⟨c, d, hkd, hc, hd, hcd, hrest⟩ := hj
  have hkeep {j : NodeIdx} (hjk : j ≤ k) : (mergeNodes tb pq a b).nodes.entry j = tb.nodes.entry j :=
    entry_mergeNodes_old (h.ne_newIdx (Nat.lt_of_le_of_lt hjk hk))
  exact joinsLeast_of_older (fun j hjk => hkeep hjk.le) ((hkeep le_rfl).trans hkd) hc hd hcd hrest

end Merge

/-! ### The loop -/

/-- What every pass keeps holds at the end of BUILD's loop. -/
theorem mergeAll_keeps {P : TreeWork → Prop} (hpass : ∀ tb tb', mergeOnce tb = some tb' → P tb → P tb') (fuel : Nat)
    {tb : TreeWork} (h : P tb) : P (mergeAll fuel tb) := by
  induction fuel generalizing tb with
  | zero => exact h
  | succ fuel ih =>
    unfold mergeAll
    cases hm : mergeOnce tb with
    | none => exact h
    | some tb' => exact ih (hpass tb tb' hm h)

/-- The loop's invariant, and that every node made so far joined the two nodes of least key. -/
def LeastInv (ls : List Node) (tb : TreeWork) : Prop :=
  MergeInv ls tb ∧ ∀ k : NodeIdx, ls.length ≤ k.val → k.val < tb.next → JoinsLeast tb.nodes ls.length k

theorem mergeOnce_leastInv {ls : List Node} (hlen : ls.length ≤ 256) {tb tb' : TreeWork} (h : mergeOnce tb = some tb')
    (hinv : LeastInv ls tb) : LeastInv ls tb' := by
  obtain ⟨hmerge, hjoins⟩ := hinv
  obtain ⟨a, b, pq, hperm, rfl, hab, hrest⟩ := mergeOnce_least h hmerge.nodup
  have hpass : Pass ls tb a b pq := ⟨hmerge, hlen, hperm⟩
  refine ⟨hpass.mergeNodes_inv, fun k hge hlt => ?_⟩
  rcases hpass.eq_newIdx_or_lt hlt with rfl | hk
  · exact hpass.joinsLeast_new hab hrest
  · exact hpass.joinsLeast_old hk (hjoins k hge hk)

theorem buildTree_joinsLeast (freq : FreqTable) {k : NodeIdx} (hge : (leafNodes freq).length ≤ k.val)
    (hlt : k.val < (buildTree freq).next) : JoinsLeast (buildTree freq).nodes (leafNodes freq).length k := by
  have hlen := leafNodes_length_le freq
  have hinit : LeastInv (leafNodes freq) (initTree (leafNodes freq)) :=
    ⟨initTree_inv hlen fun _ => leafNodes_isLeaf, fun k hge hlt => absurd hlt (Nat.not_lt.mpr hge)⟩
  obtain ⟨-, hjoins⟩ := mergeAll_keeps (fun _ _ => mergeOnce_leastInv hlen) _ hinit
  exact hjoins k hge hlt

/-! ### What BUILD leaves -/

/-- The one answer of BUILD (42_tree_builder.md R170). -/
theorem exec_build_next {s t : State} (h : exec .build s = .next t) :
    t = (s.setTree (buildTree s.freq) (leafNodes s.freq).length).complete := by
  cases h
  rfl

theorem leafNodes_length (freq : FreqTable) : (leafNodes freq).length = (presentSyms freq).length := by
  rw [leafNodes_eq_map, List.length_map]

theorem toNat_builtLeafCount (freq : FreqTable) :
    (BitVec.ofNat 9 (leafNodes freq).length).toNat = (leafNodes freq).length := by
  have := leafNodes_length_le freq
  exact Nat.mod_eq_of_lt (by omega)

theorem buildTree_next (freq : FreqTable) : (buildTree freq).next = 2 * (leafNodes freq).length - 1 := by
  rcases Nat.eq_zero_or_pos (leafNodes freq).length with hzero | hpos
  · rw [buildTree_of_no_leaf hzero, hzero]
  · exact (buildTree_end hpos).1

theorem buildTree_pq (freq : FreqTable) :
    (buildTree freq).pq = if 1 ≤ (leafNodes freq).length then [rootIdx (leafNodes freq).length] else [] := by
  split_ifs with hpos
  · exact (buildTree_end hpos).2
  · rw [buildTree_of_no_leaf (by omega)]

/-- ROOT is the last node made, and 0 where none was (42_tree_builder.md R170, R174, R175). -/
theorem buildTree_root_val (freq : FreqTable) :
    ((buildTree freq).pq.head?.getD 0).val = 2 * (leafNodes freq).length - 2 := by
  rw [buildTree_pq]
  split_ifs with hpos
  · exact rootIdx_val (leafNodes_length_le freq)
  · rw [Nat.eq_zero_of_not_pos hpos]
    rfl

/-- The loop never writes an entry of the leaf loader (42_tree_builder.md R162). -/
theorem buildTree_leaf (freq : FreqTable) {k : NodeIdx} (hk : k.val < (leafNodes freq).length) :
    (buildTree freq).nodes.entry k = (leafNodes freq)[k.val] := by
  have hlen := leafNodes_length_le freq
  obtain ⟨hinv, -⟩ := buildTree_inv freq
  rw [hinv.leaves k hk, entry_loadLeaves (by omega), List.getElem?_eq_getElem hk, Option.getD_some]

/-- Settles O34: the loop keeps `LeastInv`, and the queue of a pass is what waits when its node is made. -/
theorem buildMergesTheTwoLeastKeys : Obligations.BuildMergesTheTwoLeastKeys := by
  intro s t h k
  rw [exec_build_next h, show (s.setTree _ _).complete.leafCount.toNat = _ from toNat_builtLeafCount s.freq]
  intro hge hlt
  exact buildTree_joinsLeast s.freq hge (buildTree_next s.freq ▸ hlt)

/-- Settles O32, from the end of BUILD's loop with a symbol counted and without one. -/
theorem buildCompletesForEveryFreq : Obligations.BuildCompletesForEveryFreq := by
  intro s
  simp only [← leafNodes_length]
  refine ⟨_, rfl, rfl, rfl, toNat_builtLeafCount s.freq, ?nodeCount, buildTree_root_val s.freq, ?pq, fun hzero k => ?node⟩
  case nodeCount =>
    have hlen := leafNodes_length_le s.freq
    rw [State.complete_nodeCount, State.setTree_nodeCount, buildTree_next]
    exact Nat.mod_eq_of_lt (by omega)
  case pq =>
    rw [State.complete_pq, State.complete_root, State.setTree_pq, State.setTree_root, buildTree_pq]
    split_ifs <;> rfl
  case node =>
    rw [State.complete_node, State.setTree_node, buildTree_of_no_leaf hzero, entry_nodeZero]

/-- Settles O33: the leaves of BUILD are the symbols counted, and its loop keeps them. -/
theorem buildLoadsOneLeafPerSymbol : Obligations.BuildLoadsOneLeafPerSymbol := by
  intro s t h k hk
  have hlen := presentSyms_length_le s.freq
  have hval : (Fin.ofNat 511 k).val = k := nodeIdx_val_ofNat (by omega)
  have hleaf := buildTree_leaf s.freq (k := Fin.ofNat 511 k) (by rw [leafNodes_length]; omega)
  simp only [hval, leafNodes_eq_map, List.getElem_map] at hleaf
  rw [exec_build_next h]
  exact hleaf

end Sys2Proof.Machine
end

section
/-! PROOFS. What changes the tree: of the moves of the block only BUILD, reset and power-on do (42_tree_builder.md R171,
70_reset_and_hazards.md R354). -/

namespace Sys2Proof.Machine

variable {s t u : State} {i : Instr} {e : ErrCode} {info : Word} {x : Turn}

/-- The tree registers, NODE, PQ and TREE_VALID agree (42_tree_builder.md R171). -/
def SameTree (s t : State) : Prop :=
  t.node = s.node ∧ t.leafCount = s.leafCount ∧ t.nodeCount = s.nodeCount ∧ t.root = s.root ∧ t.pq = s.pq ∧
    t.status.treeValid = s.status.treeValid

theorem SameTree.refl (s : State) : SameTree s s := ⟨rfl, rfl, rfl, rfl, rfl, rfl⟩

theorem Completes.sameTree (h : Completes s i u e info) (hbuild : i ≠ .build) : SameTree s u := by
  cases h with
  | build => exact absurd rfl hbuild
  | _ => exact SameTree.refl s

theorem CompletesTo.sameTree (h : CompletesTo s i t) (hbuild : i ≠ .build) : SameTree s t := by
  obtain ⟨u, e, info, hc, rfl⟩ := h
  exact hc.sameTree hbuild

theorem Moves.sameTree (h : Moves s x t) (hr : x ≠ .reset) (hp : x ≠ .powerOn)
    (hbuild : ¬ (x = .core ∧ s.status.busy = true ∧ s.pending = encode .build)) : SameTree s t := by
  cases h with
  | putReg _ r => cases r <;> exact SameTree.refl s
  | exec hb hd ht =>
    refine ht.sameTree ?_
    rintro rfl
    exact hbuild ⟨rfl, hb, eq_encode_of_decode hd⟩
  | reset => exact absurd rfl hr
  | powerOn => exact absurd rfl hp
  | _ => exact SameTree.refl s

/-- Settles O53: of the moves of the block only the three excluded ones write the tree. -/
theorem onlyBuildAndResetChangeTheTree : Obligations.OnlyBuildAndResetChangeTheTree := by
  intro s t h hr hp hbuild
  obtain ⟨ts, ops, obs, k, hm⟩ := step_moves h
  exact hm.sameTree hr hp hbuild

end Sys2Proof.Machine
end

section
/-! PROOFS. Paths in a tree: an edge carries the bit of the child taken, no path runs through a leaf, and in a tree of the
shape of 10_state.md R44 every node has exactly one path from the root (43_code_table_gen.md R193, R195). -/

namespace Sys2Proof.Machine

open Sys2Proof.Safety

/-! ### Edges -/

/-- The child of node `k` at the end of its edge with bit `b` (43_code_table_gen.md R193). -/
def childAt (t : NodeTable) (k : NodeIdx) (b : Bool) : NodeIdx := if b then (t.entry k).right else (t.entry k).left

theorem isChild_childAt (t : NodeTable) (k : NodeIdx) (b : Bool) : IsChild t (childAt t k b) k := by
  cases b
  · exact .inl rfl
  · exact .inr rfl

theorem exists_childAt_eq {t : NodeTable} {i k : NodeIdx} (h : IsChild t i k) : ∃ b, childAt t k b = i := by
  rcases h with h | h
  · exact ⟨false, h⟩
  · exact ⟨true, h⟩

theorem childAt_inj {t : NodeTable} {k : NodeIdx} (hne : (t.entry k).left ≠ (t.entry k).right) {b b' : Bool}
    (h : childAt t k b = childAt t k b') : b = b' := by
  cases b <;> cases b'
  · rfl
  · exact absurd h hne
  · exact absurd h.symm hne
  · rfl

/-! ### Paths -/

variable {t : NodeTable} {r k : NodeIdx} {p q : BitString}

theorem pathTo_nil_iff : PathTo t r k [] ↔ k = r := by
  refine ⟨fun h => ?_, fun h => h ▸ .root⟩
  generalize hp : ([] : BitString) = p at h
  cases h with
  | root => rfl
  | left => simp at hp
  | right => simp at hp

/-- The last edge of a path. -/
theorem pathTo_append_singleton_iff {b : Bool} :
    PathTo t r k (p ++ [b]) ↔ ∃ j, PathTo t r j p ∧ (t.entry j).leaf = false ∧ k = childAt t j b := by
  constructor
  · intro h
    generalize hp : p ++ [b] = p' at h
    cases h with
    | root => simp at hp
    | left h hleaf =>
      obtain ⟨rfl, rfl⟩ := List.concat_inj.mp (by simpa using hp)
      exact ⟨_, h, hleaf, rfl⟩
    | right h hleaf =>
      obtain ⟨rfl, rfl⟩ := List.concat_inj.mp (by simpa using hp)
      exact ⟨_, h, hleaf, rfl⟩
  · rintro ⟨j, h, hleaf, rfl⟩
    cases b
    · exact h.left hleaf
    · exact h.right hleaf

/-- The first edge of a path. -/
theorem pathTo_cons_iff {b : Bool} :
    PathTo t r k (b :: p) ↔ (t.entry r).leaf = false ∧ PathTo t (childAt t r b) k p := by
  induction p using List.reverseRecOn generalizing k with
  | nil =>
    rw [← List.nil_append [b], pathTo_append_singleton_iff]
    simp [pathTo_nil_iff]
  | append_singleton p c ih =>
    rw [← List.cons_append, pathTo_append_singleton_iff, pathTo_append_singleton_iff]
    simp only [ih]
    exact ⟨fun ⟨j, ⟨hr, hj⟩, he⟩ => ⟨hr, j, hj, he⟩, fun ⟨hr, j, hj, he⟩ => ⟨j, ⟨hr, hj⟩, he⟩⟩

/-- The bits `p` lead from node `r` to the leaf `k`. -/
def LeafPath (t : NodeTable) (r k : NodeIdx) (p : BitString) : Prop := PathTo t r k p ∧ (t.entry k).leaf = true

theorem leafPath_of_leaf (hr : (t.entry r).leaf = true) : LeafPath t r k p ↔ k = r ∧ p = [] := by
  constructor
  · rintro ⟨h, -⟩
    cases p with
    | nil => exact ⟨pathTo_nil_iff.mp h, rfl⟩
    | cons b p => exact absurd (hr.symm.trans (pathTo_cons_iff.mp h).1) Bool.noConfusion
  · rintro ⟨rfl, rfl⟩
    exact ⟨.root, hr⟩

theorem leafPath_of_internal (hr : (t.entry r).leaf = false) :
    LeafPath t r k p ↔ ∃ b q, p = b :: q ∧ LeafPath t (childAt t r b) k q := by
  constructor
  · rintro ⟨h, hk⟩
    cases p with
    | nil =>
      obtain rfl := pathTo_nil_iff.mp h
      exact absurd (hk.symm.trans hr) Bool.noConfusion
    | cons b p => exact ⟨b, p, rfl, (pathTo_cons_iff.mp h).2, hk⟩
  · rintro ⟨b, q, rfl, h, hk⟩
    exact ⟨pathTo_cons_iff.mpr ⟨hr, h⟩, hk⟩

/-- No leaf's path runs on to another leaf (43_code_table_gen.md R196 (c)). -/
theorem LeafPath.eq_of_prefix {j : NodeIdx} (hj : LeafPath t r j p) (hk : LeafPath t r k q) (hpre : p <+: q) : j = k := by
  obtain ⟨q, rfl⟩ := hpre
  obtain ⟨hj, hjleaf⟩ := hj
  obtain ⟨hk, hkleaf⟩ := hk
  induction p generalizing r with
  | nil =>
    obtain rfl := pathTo_nil_iff.mp hj
    exact ((leafPath_of_leaf hjleaf).mp ⟨hk, hkleaf⟩).1.symm
  | cons b p ih => exact ih (pathTo_cons_iff.mp hj).2 (pathTo_cons_iff.mp hk).2

end Sys2Proof.Machine

/-! ### Paths from the root of a tree -/

namespace Sys2Proof.Safety

open Sys2Proof.Machine

variable {t : NodeTable} {n : Nat} {r : NodeIdx} (hshape : TreeShape t n r) {j k : NodeIdx} {b c : Bool}
  {p q : BitString}
include hshape

theorem TreeShape.lt_iff_leaf (hk : k.val ≤ 2 * n - 2) : k.val < n ↔ (t.entry k).leaf = true := by
  refine ⟨fun hlt => (hshape.leaf k hlt).1, fun hleaf => ?_⟩
  by_contra hge
  exact absurd (hleaf.symm.trans (hshape.internal k (Nat.not_lt.mp hge) hk).1) Bool.noConfusion

theorem TreeShape.le_of_internal (hleaf : (t.entry k).leaf = false) : n ≤ k.val := by
  by_contra hlt
  exact absurd ((hshape.leaf k (Nat.not_le.mp hlt)).1.symm.trans hleaf) Bool.noConfusion

theorem TreeShape.childAt_lt (hge : n ≤ k.val) (hk : k.val ≤ 2 * n - 2) : childAt t k b < k := by
  obtain ⟨-, -, hl, hr, -⟩ := hshape.internal k hge hk
  cases b
  · exact hl
  · exact hr

theorem TreeShape.childAt_ne_root (hge : n ≤ k.val) (hk : k.val ≤ 2 * n - 2) : childAt t k b ≠ r := by
  obtain ⟨hl, hr⟩ := hshape.root_no_parent k hge hk
  cases b
  · exact hl
  · exact hr

/-- A node below the root is the end of one edge (10_state.md R44 (d)). -/
theorem TreeShape.edge_unique (hjge : n ≤ j.val) (hj : j.val ≤ 2 * n - 2) (hkge : n ≤ k.val) (hk : k.val ≤ 2 * n - 2)
    (h : childAt t j b = childAt t k c) : j = k ∧ b = c := by
  have hlt : (childAt t j b).val < j.val := hshape.childAt_lt hjge hj
  have hjk : j = k := (hshape.one_parent (childAt t j b) (by omega)).unique
    ⟨hjge, hj, isChild_childAt t j b⟩ ⟨hkge, hk, h ▸ isChild_childAt t k c⟩
  subst hjk
  obtain ⟨-, -, -, -, hne, -⟩ := hshape.internal j hjge hj
  exact ⟨rfl, childAt_inj hne h⟩

/-- Along a path the index falls, by one at least for every edge. -/
theorem TreeShape.val_add_length_le (h : PathTo t r k p) : k.val + p.length ≤ 2 * n - 2 := by
  induction p using List.reverseRecOn generalizing k with
  | nil =>
    rw [pathTo_nil_iff.mp h, hshape.root_eq]
    exact le_rfl
  | append_singleton p b ih =>
    obtain ⟨j, hj, hleaf, rfl⟩ := pathTo_append_singleton_iff.mp h
    have hle := ih hj
    have hlt : (childAt t j b).val < j.val := hshape.childAt_lt (hshape.le_of_internal hleaf) (by omega)
    rw [List.length_append, List.length_singleton]
    omega

/-- No path of a tree of `n` leaves has more than `n - 1` edges (43_code_table_gen.md R195). -/
theorem TreeShape.length_lt (h : PathTo t r k p) : p.length < n := by
  cases p using List.reverseRecOn with
  | nil => exact hshape.leaves_pos
  | append_singleton p b =>
    obtain ⟨j, hj, hleaf, -⟩ := pathTo_append_singleton_iff.mp h
    have hle := hshape.val_add_length_le hj
    have hge := hshape.le_of_internal hleaf
    have hpos := hshape.leaves_pos
    rw [List.length_append, List.length_singleton]
    omega

/-- Every node has a path from the root, by its parent's. -/
theorem TreeShape.exists_pathTo (hk : k.val ≤ 2 * n - 2) : ∃ p, PathTo t r k p := by
  induction k using WellFoundedGT.induction with
  | ind k ih =>
    by_cases hkr : k = r
    · exact ⟨[], pathTo_nil_iff.mpr hkr⟩
    · have hlt : k.val < 2 * n - 2 := hk.lt_of_ne fun he => hkr (Fin.ext (he.trans hshape.root_eq.symm))
      obtain ⟨j, ⟨hge, hj, hchild⟩, -⟩ := hshape.one_parent k hlt
      obtain ⟨b, rfl⟩ := exists_childAt_eq hchild
      obtain ⟨p, hp⟩ := ih j (hshape.childAt_lt hge hj) hj
      exact ⟨p ++ [b], pathTo_append_singleton_iff.mpr ⟨j, hp, (hshape.internal j hge hj).1, rfl⟩⟩

/-- Every node has one path from the root only: its last edge is the one that ends at the node. -/
theorem TreeShape.path_unique (hp : PathTo t r k p) (hq : PathTo t r k q) : p = q := by
  have hinner {j : NodeIdx} {p : BitString} (h : PathTo t r j p) (hleaf : (t.entry j).leaf = false) :
      n ≤ j.val ∧ j.val ≤ 2 * n - 2 := by
    have hle := hshape.val_add_length_le h
    exact ⟨hshape.le_of_internal hleaf, by omega⟩
  induction p using List.reverseRecOn generalizing k q with
  | nil =>
    cases q using List.reverseRecOn with
    | nil => rfl
    | append_singleton q c =>
      obtain ⟨i, hi, hleaf, he⟩ := pathTo_append_singleton_iff.mp hq
      obtain ⟨hge, hle⟩ := hinner hi hleaf
      exact absurd (he.symm.trans (pathTo_nil_iff.mp hp)) (hshape.childAt_ne_root hge hle)
  | append_singleton p b ih =>
    obtain ⟨j, hj, hjleaf, rfl⟩ := pathTo_append_singleton_iff.mp hp
    obtain ⟨hjge, hjle⟩ := hinner hj hjleaf
    cases q using List.reverseRecOn with
    | nil => exact absurd (pathTo_nil_iff.mp hq) (hshape.childAt_ne_root hjge hjle)
    | append_singleton q c =>
      obtain ⟨i, hi, hileaf, he⟩ := pathTo_append_singleton_iff.mp hq
      obtain ⟨hige, hile⟩ := hinner hi hileaf
      obtain ⟨rfl, rfl⟩ := hshape.edge_unique hjge hjle hige hile he
      rw [ih hj hi]

/-- The leaves at the ends of paths are the `n` leaves of the tree. -/
theorem TreeShape.exists_leafPath_iff : (∃ p, LeafPath t r k p) ↔ k.val < n := by
  constructor
  · rintro ⟨p, h, hleaf⟩
    have hle := hshape.val_add_length_le h
    exact (hshape.lt_iff_leaf (by omega)).mpr hleaf
  · intro hk
    have hle : k.val ≤ 2 * n - 2 := by omega
    obtain ⟨p, h⟩ := hshape.exists_pathTo hle
    exact ⟨p, h, (hshape.lt_iff_leaf hle).mp hk⟩

/-- No two leaves hold the same symbol (10_state.md R44 (b)). -/
theorem TreeShape.sym_inj (hj : j.val < n) (hk : k.val < n) (h : (t.entry j).sym = (t.entry k).sym) : j = k := by
  rcases lt_trichotomy j k with hlt | heq | hgt
  · exact absurd h (BitVec.ne_of_lt (hshape.syms_ascend j k hlt hk))
  · exact heq
  · exact absurd h.symm (BitVec.ne_of_lt (hshape.syms_ascend k j hgt hj))

end Sys2Proof.Safety
end

section
/-! PROOFS. GENCODES: the walk gives every leaf's symbol the leaf's path, and no code of the table it leaves begins
another (43_code_table_gen.md R191 to R198). -/

namespace Sys2Proof.Machine

open Sys2Proof.Safety

/-! ### The walk -/

section

variable {t : NodeTable} {k r : NodeIdx} {p : BitString} {codes codes' c : CodeTable}

/-- What a walk that ends has done: entered the leaf it stands at, or walked both subtrees (43_code_table_gen.md
R191). -/
theorem walk_cases {fuel : Nat} (h : walk t fuel k p codes = some codes') :
    ((t.entry k).leaf = true ∧ codes' = setEntry codes (t.entry k).sym (CodeEntry.ofBits p)) ∨
    ∃ fuel' mid, fuel = fuel' + 1 ∧ (t.entry k).leaf = false ∧
      walk t fuel' (childAt t k false) (p ++ [false]) codes = some mid ∧
      walk t fuel' (childAt t k true) (p ++ [true]) mid = some codes' := by
  cases hleaf : (t.entry k).leaf with
  | true => cases fuel <;> exact .inl ⟨rfl, by simpa [walk, hleaf] using h.symm⟩
  | false =>
    cases fuel with
    | zero => simp [walk, hleaf] at h
    | succ fuel =>
      cases hmid : walk t fuel (t.entry k).left (p ++ [false]) codes with
      | none => simp [walk, hleaf, hmid] at h
      | some mid => exact .inr ⟨fuel, mid, rfl, rfl, hmid, by simpa [walk, hleaf, hmid, childAt] using h⟩

/-- CODE after a walk from node `r`, symbol by symbol: with `f` the code of a path, the entry of a symbol that a leaf
below `r` holds is the code of a path to such a leaf, and any other entry is the old one. -/
def Coded (t : NodeTable) (r : NodeIdx) (f : BitString → BitString) (codes codes' : CodeTable) : Prop :=
  ∀ x : Byte,
    (∃ k q, LeafPath t r k q ∧ (t.entry k).sym = x ∧ entryOf codes' x = CodeEntry.ofBits (f q)) ∨
      ((∀ k q, LeafPath t r k q → (t.entry k).sym ≠ x) ∧ entryOf codes' x = entryOf codes x)

theorem coded_leaf {f : BitString → BitString} (hleaf : (t.entry r).leaf = true) :
    Coded t r f codes (setEntry codes (t.entry r).sym (CodeEntry.ofBits (f []))) := by
  intro x
  by_cases hx : (t.entry r).sym = x
  · subst hx
    exact .inl ⟨r, [], (leafPath_of_leaf hleaf).mpr ⟨rfl, rfl⟩, rfl, entryOf_setEntry_same _ _ _⟩
  · refine .inr ⟨fun k q h => ?_, entryOf_setEntry_other _ _ (Ne.symm hx)⟩
    rwa [((leafPath_of_leaf hleaf).mp h).1]

/-- The two subtrees one after the other: the right one keeps what the left one entered, save where it enters the symbol
itself. -/
theorem coded_internal {f : BitString → BitString} {mid : CodeTable} (hleaf : (t.entry r).leaf = false)
    (hl : Coded t (childAt t r false) (fun q => f (false :: q)) codes mid)
    (hr : Coded t (childAt t r true) (fun q => f (true :: q)) mid codes') : Coded t r f codes codes' := by
  have hpath {b : Bool} {k : NodeIdx} {q : BitString} (h : LeafPath t (childAt t r b) k q) : LeafPath t r k (b :: q) :=
    (leafPath_of_internal hleaf).mpr ⟨b, q, rfl, h⟩
  intro x
  rcases hr x with ⟨k, q, hk, hx, he⟩ | ⟨hnone, he⟩
  · exact .inl ⟨k, _, hpath hk, hx, he⟩
  rcases hl x with ⟨k, q, hk, hx, hm⟩ | ⟨hnone', hm⟩
  · exact .inl ⟨k, _, hpath hk, hx, he.trans hm⟩
  refine .inr ⟨fun k p hk => ?_, he.trans hm⟩
  obtain ⟨b, q, -, hq⟩ := (leafPath_of_internal hleaf).mp hk
  cases b
  · exact hnone' k q hq
  · exact hnone k q hq

/-- A walk enters, for every leaf below its node, the walk's own path with the leaf's path after it (43_code_table_gen.md
R193). -/
theorem walk_coded {fuel : Nat} (h : walk t fuel k p codes = some codes') : Coded t k (p ++ ·) codes codes' := by
  induction fuel generalizing k p codes codes' with
  | zero =>
    obtain ⟨hleaf, rfl⟩ | ⟨_, _, hfuel, -⟩ := walk_cases h
    · simpa using coded_leaf (f := (p ++ ·)) hleaf
    · exact absurd hfuel (Nat.succ_ne_zero _).symm
  | succ fuel ih =>
    obtain ⟨hleaf, rfl⟩ | ⟨_, mid, ⟨⟩, hleaf, hl, hr⟩ := walk_cases h
    · simpa using coded_leaf (f := (p ++ ·)) hleaf
    · exact coded_internal hleaf (by simpa using ih hl) (by simpa using ih hr)

/-! ### The table of a tree -/

/-- The code that GENCODES gives a leaf with path `p` (43_code_table_gen.md R193, R194): the path, or "0" where the root is
the leaf. -/
def pathCode (p : BitString) : BitString := if p = [] then [false] else p

theorem codesOfTree_coded (h : codesOfTree t r = some c) : Coded t r pathCode CodeTable.zero c := by
  unfold codesOfTree at h
  split at h
  next hleaf =>
    cases h
    exact coded_leaf hleaf
  next hinner =>
    obtain ⟨hleaf, -⟩ | ⟨_, mid, -, hleaf, hl, hr⟩ := walk_cases h
    · exact absurd hleaf hinner
    · exact coded_internal hleaf (by simpa [pathCode] using walk_coded hl) (by simpa [pathCode] using walk_coded hr)

theorem codesOfTree_of_leaf (hleaf : (t.entry r).leaf = true) :
    codesOfTree t r = some (setEntry CodeTable.zero (t.entry r).sym (CodeEntry.ofBits [false])) := if_pos hleaf

theorem pathCode_of_internal {q : BitString} (hleaf : (t.entry r).leaf = false) (h : LeafPath t r k q) :
    pathCode q = q := by
  obtain ⟨b, q, rfl, -⟩ := (leafPath_of_internal hleaf).mp h
  exact if_neg (List.cons_ne_nil b q)

/-- A leaf's code begins no other leaf's code, in a tree of one leaf too. -/
theorem eq_of_pathCode_prefix {j : NodeIdx} {q : BitString} (hj : LeafPath t r j p) (hk : LeafPath t r k q)
    (hpre : pathCode p <+: pathCode q) : j = k := by
  cases hleaf : (t.entry r).leaf with
  | true => exact ((leafPath_of_leaf hleaf).mp hj).1.trans ((leafPath_of_leaf hleaf).mp hk).1.symm
  | false =>
    rw [pathCode_of_internal hleaf hj, pathCode_of_internal hleaf hk] at hpre
    exact hj.eq_of_prefix hk hpre

section Shape

variable {n : Nat} (hshape : TreeShape t n r) (hc : codesOfTree t r = some c)
include hshape

/-- Every code fits an entry (43_code_table_gen.md R195). -/
theorem LeafPath.pathCode_wellFormed (h : LeafPath t r k p) : codeWellFormed (pathCode p) = true := by
  have hlt := hshape.length_lt h.1
  have hle := hshape.leaves_le
  unfold pathCode
  split_ifs with hp
  · decide
  · exact (codeWellFormed_iff p).mpr ⟨List.length_pos_iff.mpr hp, by omega⟩

include hc

/-- The entries of the table, by the symbols with a leaf and those without one. -/
theorem entryOf_codesOfTree (x : Byte) :
    (∃ k p, LeafPath t r k p ∧ (t.entry k).sym = x ∧ entryOf c x = CodeEntry.ofBits (pathCode p)) ∨
      ((∀ k : NodeIdx, k.val < n → (t.entry k).sym ≠ x) ∧ entryOf c x = CodeEntry.zero) := by
  refine (codesOfTree_coded hc x).imp_right fun ⟨hnone, he⟩ => ⟨fun k hk => ?_, he.trans (entryOf_codeZero x)⟩
  obtain ⟨p, hp⟩ := hshape.exists_leafPath_iff.mpr hk
  exact hnone k p hp

theorem entryOf_sym_of_leafPath (hk : LeafPath t r k p) :
    entryOf c (t.entry k).sym = CodeEntry.ofBits (pathCode p) := by
  have hlt : k.val < n := hshape.exists_leafPath_iff.mp ⟨p, hk⟩
  obtain ⟨j, q, hj, hsym, he⟩ | ⟨hnone, -⟩ := entryOf_codesOfTree hshape hc (t.entry k).sym
  · obtain rfl := hshape.sym_inj (hshape.exists_leafPath_iff.mp ⟨q, hj⟩) hlt hsym
    rw [he, hshape.path_unique hj.1 hk.1]
  · exact absurd rfl (hnone k hlt)

theorem entryOf_of_no_leaf {x : Byte} (hx : ∀ k : NodeIdx, k.val < n → (t.entry k).sym ≠ x) :
    entryOf c x = CodeEntry.zero := by
  obtain ⟨k, p, hk, hsym, -⟩ | ⟨-, he⟩ := entryOf_codesOfTree hshape hc x
  · exact absurd hsym (hx k (hshape.exists_leafPath_iff.mp ⟨p, hk⟩))
  · exact he

theorem codeOf_sym_of_leafPath (hk : LeafPath t r k p) : codeOf c (t.entry k).sym = some (pathCode p) :=
  codeOf_of_entry (hk.pathCode_wellFormed hshape) (entryOf_sym_of_leafPath hshape hc hk)

theorem len_pos_iff_leaf (x : Byte) :
    0 < (entryOf c x).len.toNat ↔ ∃ k : NodeIdx, k.val < n ∧ (t.entry k).sym = x := by
  obtain ⟨k, p, hk, hsym, he⟩ | ⟨hnone, he⟩ := entryOf_codesOfTree hshape hc x <;> rw [he]
  · have hwf := hk.pathCode_wellFormed hshape
    rw [CodeEntry.toNat_len_ofBits hwf]
    exact iff_of_true ((codeWellFormed_iff _).mp hwf).1 ⟨k, hshape.exists_leafPath_iff.mp ⟨p, hk⟩, hsym⟩
  · exact iff_of_false (Nat.lt_irrefl 0) fun ⟨k, hk, hsym⟩ => hnone k hk hsym

/-- A symbol's code is that of a leaf that holds the symbol. -/
theorem exists_leafPath_of_codeOf {x : Byte} {d : BitString} (h : codeOf c x = some d) :
    ∃ k p, LeafPath t r k p ∧ (t.entry k).sym = x ∧ d = pathCode p := by
  obtain ⟨k, p, hk, hsym, -⟩ | ⟨-, he⟩ := entryOf_codesOfTree hshape hc x
  · subst hsym
    exact ⟨k, p, hk, rfl, Option.some.inj (h.symm.trans (codeOf_sym_of_leafPath hshape hc hk))⟩
  · exact absurd (congrArg CodeEntry.len he) ((codeOf_eq_some_iff c x d).mp h).1

theorem codesOfTree_prefixFree : PrefixFree c := by
  intro x y cx cy hx hy hne hpre
  obtain ⟨j, p, hj, rfl, rfl⟩ := exists_leafPath_of_codeOf hshape hc hx
  obtain ⟨k, q, hk, rfl, rfl⟩ := exists_leafPath_of_codeOf hshape hc hy
  exact hne (congrArg (fun i => (t.entry i).sym) (eq_of_pathCode_prefix hj hk hpre))

theorem codesOfTree_valTrimmed (x : Byte) : ValTrimmed (entryOf c x) := by
  obtain ⟨k, p, hk, -, he⟩ | ⟨-, he⟩ := entryOf_codesOfTree hshape hc x <;> rw [he]
  · exact valTrimmed_ofBits (hk.pathCode_wellFormed hshape)
  · exact Nat.one_pos

end Shape

end

theorem distinctCodes_of_prefixFree {c : CodeTable} (h : PrefixFree c) : DistinctCodes c := by
  intro x y hne heq
  by_contra hsome
  obtain ⟨d, hd⟩ := Option.ne_none_iff_exists'.mp hsome
  exact h x y d d hd (heq.symm.trans hd) hne List.prefix_rfl

/-! ### GENCODES -/

variable {s t : State} {c : CodeTable}

theorem exec_gencodes_of_no_tree (hv : s.status.treeValid = false) :
    exec .gencodes s = .next { ended s .ok 0 with code := CodeTable.zero } := by
  simp only [exec, execGencodes, hv]
  rfl

theorem exec_gencodes_of_tree (hv : s.status.treeValid = true) (hc : codesOfTree s.node s.root = some c) :
    exec .gencodes s = .next { ended s .ok 0 with code := c } := by
  simp only [exec, execGencodes, hv, hc]
  rfl

/-- With a tree CODE becomes the tree's table. -/
theorem codesOfTree_of_exec_gencodes (hv : s.status.treeValid = true) (h : exec .gencodes s = .next t) :
    codesOfTree s.node s.root = some t.code := by
  obtain ⟨u, e, info, hcomp, rfl⟩ := exec_completes h
  cases hcomp with
  | gencodesEmpty hno => exact absurd (hv.symm.trans hno) Bool.noConfusion
  | gencodes _ hc => exact hc

/-- Settles O35: without a tree the table is the empty one, and a root that is a leaf is its one entry. -/
theorem gencodesWithoutBranches : Obligations.GencodesWithoutBranches := by
  refine fun s => ⟨fun hv => ⟨_, exec_gencodes_of_no_tree hv, rfl, entryOf_codeZero⟩, fun hv hleaf => ?_⟩
  have hentry : entryOf (setEntry CodeTable.zero (s.node.entry s.root).sym (CodeEntry.ofBits [false]))
      (s.node.entry s.root).sym = CodeEntry.ofBits [false] := entryOf_setEntry_same _ _ _
  refine ⟨_, exec_gencodes_of_tree hv (codesOfTree_of_leaf hleaf), rfl, codeOf_of_entry (by decide) hentry, ?_,
    fun x hx => ?_⟩
  · rw [hentry]
    rfl
  · exact (entryOf_setEntry_other _ _ hx).trans (entryOf_codeZero x)

/-- Settles O36: the walk ends in every tree and enters every leaf under its path, which is the leaf's only one. -/
theorem gencodesGivesEveryLeafItsPath : Obligations.GencodesGivesEveryLeafItsPath := by
  rintro s ⟨htree, -⟩ hv hroot
  obtain ⟨hshape, -⟩ := htree hv
  obtain ⟨c, hc⟩ := codesOfTree_isSome hshape
  refine ⟨_, exec_gencodes_of_tree hv hc, rfl, fun k hk => ?path, fun k p hp hleaf => ?code,
    fun x hx => entryOf_of_no_leaf hshape hc hx⟩
  case path =>
    obtain ⟨p, hp, -⟩ := hshape.exists_leafPath_iff.mpr hk
    exact ⟨p, hp⟩
  case code =>
    have hk : LeafPath s.node s.root k p := ⟨hp, hleaf⟩
    rw [codeOf_sym_of_leafPath hshape hc hk, pathCode_of_internal hroot hk]

theorem treeOk_of_exec_build {b : State} (h : exec .build s = .next b) : TreeOk b := by
  rw [exec_build_next h]
  exact treeOk_build s

/-- The leaves that BUILD loads hold the symbols it counted (42_tree_builder.md R162). -/
theorem exists_leaf_sym_iff_of_exec_build {b : State} (h : exec .build s = .next b) (x : Byte) :
    (∃ k : NodeIdx, k.val < b.leafCount.toNat ∧ (b.node.entry k).sym = x) ↔ 0 < (entryOf s.freq x).toNat := by
  have hcount : b.leafCount.toNat = (presentSyms s.freq).length := by
    obtain ⟨u, hu, -, -, hcount, -⟩ := buildCompletesForEveryFreq s
    cases h.symm.trans hu
    exact hcount
  have hsym (k : Nat) (hk : k < (presentSyms s.freq).length) :
      (b.node.entry (Fin.ofNat 511 k)).sym = (presentSyms s.freq)[k] :=
    congrArg Node.sym (buildLoadsOneLeafPerSymbol s b h k hk)
  have hmem : x ∈ presentSyms s.freq ↔ 0 < (entryOf s.freq x).toNat := by
    rw [mem_presentSyms, BitVec.toNat_ne, Nat.pos_iff_ne_zero]
    rfl
  rw [hcount, ← hmem, List.mem_iff_getElem]
  constructor
  · rintro ⟨k, hk, rfl⟩
    exact ⟨k.val, hk, by rw [← hsym k.val hk, Fin.ofNat_val_eq_self]⟩
  · rintro ⟨k, hk, rfl⟩
    have hlen := presentSyms_length_le s.freq
    exact ⟨Fin.ofNat 511 k, by rwa [nodeIdx_val_ofNat (by omega)], hsym k hk⟩

/-- Settles O37: every code is that of a leaf's path, no path runs on past a leaf, and BUILD's leaves are the symbols it
counted. -/
theorem gencodesTableIsPrefixFree : Obligations.GencodesTableIsPrefixFree := by
  constructor
  · rintro s t ⟨htree, -⟩ hv h
    obtain ⟨hshape, -⟩ := htree hv
    have hc := codesOfTree_of_exec_gencodes hv h
    have hfree := codesOfTree_prefixFree hshape hc
    exact ⟨len_pos_iff_leaf hshape hc, distinctCodes_of_prefixFree hfree, hfree, codesOfTree_valTrimmed hshape hc⟩
  · intro s b t hbuild hv h x
    obtain ⟨htree, -⟩ := treeOk_of_exec_build hbuild
    obtain ⟨hshape, -⟩ := htree hv
    exact (len_pos_iff_leaf hshape (codesOfTree_of_exec_gencodes hv h) x).trans
      (exists_leaf_sym_iff_of_exec_build hbuild x)

end Sys2Proof.Machine
end

section
/-! PROOFS. The stream that PACK writes, as bits: the codes of a text in order, and the bytes of a bit string
(44_bit_packer.md R211 to R215). -/

namespace Sys2Proof.Machine

open Sys2Proof.Safety

/-! ### The bytes of a bit string -/

@[simp] theorem bytesBits_cons (b : Byte) (bs : List Byte) : bytesBits (b :: bs) = byteBits b ++ bytesBits bs :=
  List.flatMap_cons

theorem byteBits_ofNat_bitsVal {c : BitString} (h : c.length = 8) : byteBits (BitVec.ofNat 8 (bitsVal c)) = c := by
  have hlt : bitsVal c < 256 := (bitsVal_lt c).trans_eq (congrArg (2 ^ ·) h)
  exact (byteBits_eq_iff _ _).mpr ⟨h, (toNat_byteOf hlt).symm⟩

theorem bitsBytes_succ (c : BitString) (m : Nat) :
    bitsBytes c (m + 1) = BitVec.ofNat 8 (bitsVal (c.take 8)) :: bitsBytes (c.drop 8) m := by
  simp only [bitsBytes, List.range_succ_eq_map, List.map_cons, List.map_map, Function.comp_def, List.drop_drop]
  rw [Nat.mul_zero, List.drop_zero]
  simp only [Nat.mul_succ, Nat.add_comm]

/-- A whole number of bytes reads back as the bits it was cut from (44_bit_packer.md R211). -/
theorem bytesBits_bitsBytes {c : BitString} {m : Nat} (h : c.length = 8 * m) : bytesBits (bitsBytes c m) = c := by
  induction m generalizing c with
  | zero => exact (List.eq_nil_of_length_eq_zero h).symm
  | succ m ih =>
    have hdrop : (c.drop 8).length = 8 * m := by rw [List.length_drop]; omega
    have htake : (c.take 8).length = 8 := by rw [List.length_take]; omega
    rw [bitsBytes_succ, bytesBits_cons, ih hdrop, byteBits_ofNat_bitsVal htake, List.take_append_drop]

/-! ### Pass 1 -/

section Text

variable (t : CodeTable) (b : Byte) (bs : List Byte)

@[simp] theorem textBits_nil : textBits t [] = 0 := rfl

@[simp] theorem textBits_cons : textBits t (b :: bs) = (entryOf t b).len.toNat + textBits t bs := rfl

@[simp] theorem textCode_nil : textCode t [] = [] := rfl

@[simp] theorem textCode_cons : textCode t (b :: bs) = (entryOf t b).bits ++ textCode t bs := List.flatMap_cons

@[simp] theorem length_textCode : (textCode t bs).length = textBits t bs := by
  induction bs with
  | nil => rfl
  | cons b bs ih => rw [textCode_cons, List.length_append, length_codeBits, ih, textBits_cons]

theorem allCoded_cons_iff : AllCoded t (b :: bs) ↔ (entryOf t b).len ≠ 0 ∧ AllCoded t bs := List.forall_mem_cons

end Text

section Pass1

variable {t : CodeTable}

/-- Pass 1 answers a length exactly for a text whose symbols all have codes, and it is the sum of their lengths
(44_bit_packer.md R212). -/
theorem payloadLength_eq_ok_iff {bs : List Byte} {i l : Nat} :
    payloadLength t bs i = .ok l ↔ AllCoded t bs ∧ textBits t bs = l := by
  induction bs generalizing i l with
  | nil => simp [payloadLength, AllCoded]
  | cons b bs ih =>
    rw [allCoded_cons_iff, textBits_cons, payloadLength]
    by_cases hb : (entryOf t b).len = 0
    · simp [hb]
    · rw [if_neg hb]
      cases hrest : payloadLength t bs (i + 1) with
      | error j =>
        have hbs : ¬ AllCoded t bs := fun hbs => by cases hrest.symm.trans (ih.mpr ⟨hbs, rfl⟩)
        simp [hbs]
      | ok k =>
        obtain ⟨hbs, rfl⟩ := ih.mp hrest
        simp only [Except.ok.injEq, hb, hbs, not_false_eq_true, ne_eq, and_self, true_and]

/-- Pass 1 stops at the first symbol that has no code (44_bit_packer.md R217). -/
theorem payloadLength_eq_error {bs : List Byte} {k : Nat} (i : Nat) (hk : k < bs.length)
    (hzero : (entryOf t bs[k]).len = 0) (hbefore : ∀ (j : Nat) (hj : j < k), (entryOf t bs[j]).len ≠ 0) :
    payloadLength t bs i = .error (i + k) := by
  induction bs generalizing i k with
  | nil => cases hk
  | cons b bs ih =>
    rw [payloadLength]
    cases k with
    | zero => exact if_pos hzero
    | succ k =>
      have hb : (entryOf t b).len ≠ 0 := hbefore 0 k.succ_pos
      rw [if_neg hb, ih (i + 1) (Nat.lt_of_succ_lt_succ hk) hzero
        fun j hj => hbefore (j + 1) (Nat.succ_lt_succ hj)]
      dsimp only
      rw [Nat.add_right_comm, Nat.add_assoc]

end Pass1

/-! ### The frame -/

/-- Header, payload and padding take ⌊L/8⌋ + 2 bytes (44_bit_packer.md R214). -/
theorem packedLength_eq (l : Nat) : packedLength l = l / 8 + 2 := by
  unfold packedLength padOf
  omega

theorem length_streamBits (t : CodeTable) (bs : List Byte) :
    (streamBits t bs (textBits t bs)).length = 8 * packedLength (textBits t bs) := by
  have hpayload : (payloadBitsOf t bs).length = textBits t bs := length_textCode t bs
  rw [streamBits, List.length_append, List.length_append, length_msbBits, length_zeros, hpayload, packedLength, padOf]
  omega

theorem memBytes_of_writeBytes {s : State} {m : Memory} {a : Nat} {vs : List Byte} (h : s.dmem = m.writeBytes a vs) :
    s.memBytes a vs.length = vs := by
  refine List.ext_getElem (memBytes_length s a _) fun i _ hi => ?_
  simp [State.memBytes, State.memRead, h, Memory.find_writeBytes, hi]

theorem memBytes_putStream (s : State) (bs : List Byte) (l : Nat) :
    (s.putStream bs l).memBytes s.dstAddr.toNat (packedLength l) = bitsBytes (streamBits s.code bs l) (packedLength l) := by
  have h := memBytes_of_writeBytes (State.putStream_dmem s bs l)
  rwa [length_bitsBytes] at h

end Sys2Proof.Machine
end

section
/-! PROOFS. PACK: its outcome from every state, and what the stream it writes holds (44_bit_packer.md R211 to R220). -/

namespace Sys2Proof.Machine

open Sys2Proof.Safety

variable {s t : State}

/-- Settles O28: the frame is a whole number of bytes, and no completion of a command has code E_INTERNAL. -/
theorem internalErrorIsNeverReported : Obligations.InternalErrorIsNeverReported := by
  refine ⟨frame_mod_eight, fun i s t h => ?_⟩
  obtain ⟨u, e, info, hc, rfl⟩ := exec_completes h
  obtain ⟨hint, -⟩ := hc.code_info
  exact hint

/-! ### The outcomes of PACK -/

theorem exec_pack_of_rangeError {e : ErrCode} {info : Word} (h : s.rangeError = some (e, info)) :
    exec .pack s = .next (endedEmpty s e info) := by
  simp only [exec, execPack, packCleared, rangeError_clearResults, h]
  rfl

section

variable (hr : RangesOk s)
include hr

theorem exec_pack_of_empty (h : s.srcLen = 0) : exec .pack s = .next (packEmpty s.clearResults) := by
  simp only [exec, execPack, packCleared, rangeError_clearResults, (rangeError_eq_none_iff s).mpr hr,
    State.clearResults_srcLen, h, if_true]

theorem exec_pack_of_no_room (h : s.srcLen = 0) (hcap : s.dstCap = 0) :
    exec .pack s = .next (endedEmpty s .outOverflow 1) := by
  rw [exec_pack_of_empty hr h, packEmpty, if_pos (by rw [State.clearResults_dstCap, hcap]; decide)]
  rfl

/-- PACK of nothing writes the empty marker (44_bit_packer.md R216). -/
theorem exec_pack_of_marker (h : s.srcLen = 0) (hcap : 1 ≤ s.dstCap.toNat) :
    exec .pack s = .next { ended s .ok 0 with
      outLen := 1, pad := 0, payloadBits := 0, dmem := s.dmem.write s.dstAddr.toNat Config.emptyMarker } := by
  have hcap' : ¬ s.clearResults.dstCap < 1 := fun hlt => absurd hcap (Nat.not_le.mpr hlt)
  rw [exec_pack_of_empty hr h, packEmpty, if_neg hcap']
  rfl

section

variable (hne : s.srcLen ≠ 0)
include hne

theorem exec_pack_of_text : exec .pack s = .next (packText s.clearResults s.srcBytes) := by
  simp only [exec, execPack, packCleared, rangeError_clearResults, (rangeError_eq_none_iff s).mpr hr,
    State.clearResults_srcLen, srcBytes_clearResults, hne, if_false]

theorem exec_pack_of_uncoded {k : Nat} (h : payloadLength s.code s.srcBytes 0 = .error k) :
    exec .pack s = .next (endedEmpty s .noCode (wordOf k)) := by
  simp only [exec_pack_of_text hr hne, packText, State.clearResults_code, h]
  rfl

/-- PACK of a text whose symbols all have codes: the stream, or its length where it does not fit (44_bit_packer.md R211,
R218). -/
theorem exec_pack_of_coded (h : AllCoded s.code s.srcBytes) :
    exec .pack s = .next (
      if s.dstCap.toNat < packedLength (textBits s.code s.srcBytes) then
        endedEmpty s .outOverflow (wordOf (min (packedLength (textBits s.code s.srcBytes)) 0xFFFFFFFF))
      else (s.clearResults.putStream s.srcBytes (textBits s.code s.srcBytes)).complete) := by
  simp only [exec_pack_of_text hr hne, packText, State.clearResults_code, payloadLength_eq_ok_iff.mpr ⟨h, rfl⟩,
    frame_mod_eight, ne_eq, not_true_eq_false, if_false]
  rfl

end

end

/-- A PACK that ends without an error passed its range checks, and either found no text and room for the marker, or a text
of symbols with codes and room for its stream. -/
theorem exec_pack_ok (h : exec .pack s = .next t) (hok : t.status.errCode = .ok) :
    RangesOk s ∧ (s.srcLen = 0 ∧ 1 ≤ s.dstCap.toNat ∨
      s.srcLen ≠ 0 ∧ AllCoded s.code s.srcBytes ∧ textBits s.code s.srcBytes / 8 + 2 ≤ s.dstCap.toNat) := by
  have hend {e : ErrCode} {info : Word} (he : exec .pack s = .next (endedEmpty s e info)) : e = .ok := by
    cases h.symm.trans he
    exact hok
  cases hre : s.rangeError with
  | some p =>
    obtain ⟨hne, -⟩ := rangeError_ne_ok hre
    exact absurd (hend (exec_pack_of_rangeError hre)) hne
  | none =>
    have hr : RangesOk s := (rangeError_eq_none_iff s).mp hre
    refine ⟨hr, ?_⟩
    by_cases hlen : s.srcLen = 0
    · refine .inl ⟨hlen, Nat.pos_of_ne_zero fun hcap => ?_⟩
      cases hend (exec_pack_of_no_room hr hlen (BitVec.eq_of_toNat_eq hcap))
    · refine .inr ⟨hlen, ?_⟩
      cases hl : payloadLength s.code s.srcBytes 0 with
      | error k => cases hend (exec_pack_of_uncoded hr hlen hl)
      | ok l =>
        obtain ⟨hcoded, -⟩ := payloadLength_eq_ok_iff.mp hl
        refine ⟨hcoded, Nat.not_lt.mp fun hcap => ?_⟩
        rw [← packedLength_eq] at hcap
        have hover := exec_pack_of_coded hr hlen hcoded
        rw [if_pos hcap] at hover
        cases hend hover

/-! ### The obligations -/

/-- Settles O39: the marker is one byte at DST_ADDR, and needs one byte of room. -/
theorem packOfNothingWritesTheMarker : Obligations.PackOfNothingWritesTheMarker := by
  intro s hr h
  refine ⟨fun hcap => ⟨_, exec_pack_of_marker hr h hcap, rfl, ?_, ?_⟩, exec_pack_of_no_room hr h⟩
  · simp only [State.memRead, Memory.find_write_same]
    rfl
  · exact SameOutside.of_find rfl fun x hx => Memory.find_write_other _ _ (by omega)

/-- Settles O40: pass 1 stops at the first byte whose entry has LEN = 0, before any output. -/
theorem packReportsTheFirstSymbolWithoutCode : Obligations.PackReportsTheFirstSymbolWithoutCode := by
  intro s i hr hi hzero hbefore
  have hne : s.srcLen ≠ 0 := by
    intro h
    rw [h] at hi
    cases hi
  have hget (j : Nat) (hj : j < s.srcBytes.length) : s.srcBytes[j] = s.memRead (s.srcAddr.toNat + j) := by
    simp [State.srcBytes, State.memBytes]
  have hlen : i < s.srcBytes.length := hi.trans_eq (srcBytes_length s).symm
  have hl := payloadLength_eq_error (t := s.code) 0 hlen (by rw [hget]; exact hzero)
    fun j hj => by rw [hget]; exact hbefore j hj
  rw [Nat.zero_add] at hl
  exact exec_pack_of_uncoded hr hne hl

/-- Settles O41: the length check comes before any output. -/
theorem packRefusesWhatDoesNotFit : Obligations.PackRefusesWhatDoesNotFit := by
  intro s hr hne hcoded hcap
  rw [← packedLength_eq] at hcap ⊢
  exact (exec_pack_of_coded hr hne hcoded).trans (congrArg _ (if_pos hcap))

/-- Settles O38: the stream is a whole number of bytes, so the bytes written read back as its bits. -/
theorem packFramesThePayload : Obligations.PackFramesThePayload := by
  intro s hr hne hcoded hcap
  rw [← packedLength_eq] at hcap ⊢
  have hpack := exec_pack_of_coded hr hne hcoded
  rw [if_neg (Nat.not_lt.mpr hcap)] at hpack
  refine ⟨_, hpack, rfl, ?bits, ?outside⟩
  case bits =>
    exact (congrArg bytesBits (memBytes_putStream s.clearResults s.srcBytes _)).trans
      (bytesBits_bitsBytes (length_streamBits s.code s.srcBytes))
  case outside =>
    exact SameOutside.of_find rfl fun x hx => find_writeBytes_outside _ _ (by rwa [length_bitsBytes])

end Sys2Proof.Machine
end

section
/-! PROOFS. UNPACK of a framed text: the match of a candidate in CODE, the scan over the codes of a text, and the round
trip with PACK (44_bit_packer.md R221; 45_bit_unpacker.md R241 to R253). -/

namespace Sys2Proof.Machine

open Sys2Proof.Safety

/-! ### CODE as a list of codes -/

section Table

variable {t : CodeTable}

/-- The entries of CODE in their order, each with its index. -/
theorem code_zipIdx (t : CodeTable) :
    t.toList.zipIdx = (List.range 256).map fun i => (entryOf t (byteOf i), i) := by
  refine List.ext_getElem (by simp) fun i h _ => ?_
  have hi : i < 256 := by simpa using h
  simp [entryOf, byteOf, Vector.get_eq_getElem, Nat.mod_eq_of_lt hi]

/-- UNPACK's list goes through the symbols in ascending order. -/
theorem codeList_eq (t : CodeTable) :
    codeList t = ((List.range 256).map byteOf).filterMap fun x => (codeOf t x).map (Prod.mk x) := by
  rw [codeList, code_zipIdx, List.filterMap_map, List.filterMap_map]
  refine List.filterMap_congr fun i _ => ?_
  simp only [Function.comp_apply, codeOf]
  split_ifs <;> rfl

/-- UNPACK's list holds every code under its symbol, and nothing else. -/
theorem mem_codeList_iff (x : Byte) (c : BitString) : (x, c) ∈ codeList t ↔ codeOf t x = some c := by
  simp only [codeList_eq, List.mem_filterMap, Option.map_eq_some_iff, Prod.mk.injEq]
  constructor
  · rintro ⟨y, -, d, hd, rfl, rfl⟩
    exact hd
  · exact fun h => ⟨x, mem_map_byteOf x, c, h, rfl, rfl⟩

/-- No two entries of a list of distinct codes have the same code (45_bit_unpacker.md R246). -/
theorem codeList_pairwise_ne (h : DistinctCodes t) : (codeList t).Pairwise fun e f => e.2 ≠ f.2 := by
  rw [codeList_eq]
  refine List.Pairwise.filterMap _ (fun x y hne e he f hf heq => ?_) nodup_map_byteOf
  obtain ⟨c, hc, rfl⟩ := Option.map_eq_some_iff.mp he
  obtain ⟨d, hd, rfl⟩ := Option.map_eq_some_iff.mp hf
  obtain rfl : c = d := heq
  exact Option.some_ne_none c (hc.symm.trans (h x y hne (hc.trans hd.symm)))

theorem firstDup_eq_none {codes : List (Byte × BitString)} (h : codes.Pairwise fun e f => e.2 ≠ f.2) :
    firstDup codes = none := by
  induction codes with
  | nil => rfl
  | cons e rest ih =>
    obtain ⟨hne, hrest⟩ := List.pairwise_cons.mp h
    have hfind : rest.find? (fun f => f.2 == e.2) = none :=
      List.find?_eq_none.mpr fun f hf heq => hne f hf (beq_iff_eq.mp heq).symm
    rw [firstDup, hfind]
    exact ih hrest

/-- A candidate that is no symbol's code does not match (45_bit_unpacker.md R247). -/
theorem matchCode_eq_none_iff (c : BitString) : matchCode (codeList t) c = none ↔ ∀ x, codeOf t x ≠ some c := by
  rw [matchCode, Option.map_eq_none_iff, List.find?_eq_none]
  constructor
  · exact fun h x hx => h (x, c) ((mem_codeList_iff x c).mpr hx) (beq_self_eq_true c)
  · rintro h ⟨x, d⟩ hmem heq
    obtain rfl : d = c := beq_iff_eq.mp heq
    exact h x ((mem_codeList_iff x d).mp hmem)

/-- With distinct codes a candidate matches exactly the symbol whose code it is (45_bit_unpacker.md R247). -/
theorem matchCode_eq_some_iff (h : DistinctCodes t) (x : Byte) (c : BitString) :
    matchCode (codeList t) c = some x ↔ codeOf t x = some c := by
  have hsound {y : Byte} (hy : matchCode (codeList t) c = some y) : codeOf t y = some c := by
    obtain ⟨⟨z, d⟩, hfind, rfl⟩ := Option.map_eq_some_iff.mp hy
    have hd := List.find?_some hfind
    obtain rfl : d = c := beq_iff_eq.mp hd
    exact (mem_codeList_iff z d).mp (List.mem_of_find?_eq_some hfind)
  refine ⟨hsound, fun hx => ?_⟩
  cases hm : matchCode (codeList t) c with
  | none => exact absurd hx ((matchCode_eq_none_iff c).mp hm x)
  | some y =>
    by_contra hne
    have hyx : y ≠ x := fun heq => hne (congrArg some heq)
    have hy := hsound hm
    exact Option.some_ne_none c (hy.symm.trans (h y x hyx (hy.trans hx.symm)))

end Table

/-! ### The scan over the codes of a text -/

/-- The scan over the rest `c` of a code whose first bits are in the candidate: no match before its end, and there its
symbol is written (45_bit_unpacker.md R248). -/
theorem scan_of_match {codes : List (Byte × BitString)} {cand c : BitString} {x : Byte} {k cap : Nat} (m : Memory)
    (dst start q : Nat) (rest : BitString) (hpos : c ≠ []) (hmatch : matchCode codes (cand ++ c) = some x)
    (hnone : ∀ p, p <+: c → p ≠ [] → p ≠ c → matchCode codes (cand ++ p) = none)
    (hlen : cand.length + c.length ≤ Config.maxCodeLen) (hroom : k < cap) :
    scan codes dst cap (c ++ rest) q ⟨m, cand, start, k⟩ =
      scan codes dst cap rest (q + c.length) ⟨m.write (dst + k) x, [], q + c.length, k + 1⟩ := by
  induction c generalizing cand q with
  | nil => exact absurd rfl hpos
  | cons b c ih =>
    rw [List.cons_append, scan]
    by_cases hc : c = []
    · subst hc
      simp only [hmatch, if_neg hroom.ne]
      rfl
    · have hfirst : matchCode codes (cand ++ [b]) = none :=
        hnone [b] (List.prefix_append [b] c) (List.cons_ne_nil b []) fun heq => hc (List.cons.inj heq).2.symm
      have hshort : ¬ (cand ++ [b]).length = Config.maxCodeLen := by
        have := List.length_pos_iff.mpr hc
        rw [List.length_append, List.length_singleton]
        rw [List.length_cons] at hlen
        omega
      simp only [hfirst, if_neg hshort]
      have hmatch' : matchCode codes (cand ++ [b] ++ c) = some x := by rwa [List.append_assoc]
      have hnone' (p : BitString) (hp : p <+: c) (_ : p ≠ []) (hpc : p ≠ c) :
          matchCode codes (cand ++ [b] ++ p) = none := by
        rw [List.append_assoc]
        exact hnone (b :: p) ((List.prefix_cons_inj b).mpr hp) (List.cons_ne_nil b p) fun heq => hpc (List.cons.inj heq).2
      have hlen' : (cand ++ [b]).length + c.length ≤ Config.maxCodeLen := by
        rwa [List.length_append, List.length_singleton, Nat.add_assoc, Nat.add_comm 1]
      rw [ih (q + 1) hc hmatch' hnone' hlen', List.length_cons, Nat.add_right_comm, Nat.add_assoc]

/-- The scan over the codes of a text, each the shortest that matches, writes the text (45_bit_unpacker.md R248). -/
theorem scan_textCode {t : CodeTable} (hdist : DistinctCodes t) {text : List Byte} (hcoded : AllCoded t text)
    (hshort : ∀ x ∈ text, ∀ y cy, codeOf t y = some cy → cy <+: (entryOf t x).bits → y = x) (m : Memory) (dst q : Nat)
    {k cap : Nat} (hroom : k + text.length ≤ cap) (rest : BitString) :
    scan (codeList t) dst cap (textCode t text ++ rest) q ⟨m, [], q, k⟩ =
      scan (codeList t) dst cap rest (q + textBits t text)
        ⟨m.writeBytes (dst + k) text, [], q + textBits t text, k + text.length⟩ := by
  induction text generalizing m q k with
  | nil => rfl
  | cons x text ih =>
    obtain ⟨hx, htext⟩ := (allCoded_cons_iff t x text).mp hcoded
    obtain ⟨hshortx, hshort⟩ := List.forall_mem_cons.mp hshort
    have hcode : codeOf t x = some (entryOf t x).bits := (codeOf_eq_some_iff t x _).mpr ⟨hx, rfl⟩
    have hlen := (entryOf t x).len.isLt
    have hpos : (entryOf t x).bits ≠ [] := by
      rw [ne_eq, ← List.length_eq_zero_iff, length_codeBits]
      exact fun h => hx (BitVec.eq_of_toNat_eq h)
    have hnone (p : BitString) (hp : p <+: (entryOf t x).bits) (hne : p ≠ (entryOf t x).bits) :
        matchCode (codeList t) ([] ++ p) = none := by
      refine (matchCode_eq_none_iff p).mpr fun y hy => hne ?_
      obtain rfl := hshortx y p hy hp
      exact Option.some.inj (hy.symm.trans hcode)
    rw [List.length_cons] at hroom
    rw [textCode_cons, List.append_assoc,
      scan_of_match m dst q q _ hpos ((matchCode_eq_some_iff hdist x _).mpr hcode) (fun p hp _ => hnone p hp)
        (by rw [length_codeBits, List.length_nil, Config.maxCodeLen]; omega) (by omega),
      ih htext hshort _ _ (by omega), length_codeBits]
    simp only [textBits_cons, List.length_cons, Memory.writeBytes, Nat.add_assoc, Nat.add_comm 1]

/-- Where no code begins another, only a symbol's own code begins its code. -/
theorem eq_of_prefix_bits {t : CodeTable} (h : PrefixFree t) {x y : Byte} {c : BitString}
    (hx : (entryOf t x).len ≠ 0) (hy : codeOf t y = some c) (hp : c <+: (entryOf t x).bits) : y = x := by
  by_contra hne
  exact h y x c _ hy ((codeOf_eq_some_iff t x _).mpr ⟨hx, rfl⟩) hne hp

/-! ### UNPACK of a framed text -/

section Stream

variable {s : State} {h : Byte} {bs text : List Byte} {tail : BitString}

theorem exec_unpack_of_stream (hr : RangesOk s) (hsrc : s.srcBytes = h :: bs) :
    exec .unpack s = .next (unpackStream s.clearResults (h :: bs) h) := by
  simp only [exec, execUnpack, unpackCleared, rangeError_clearResults, (rangeError_eq_none_iff s).mpr hr,
    srcBytes_clearResults, hsrc]

/-- The marker alone completes with nothing written (45_bit_unpacker.md R245). -/
theorem exec_unpack_of_marker (hr : RangesOk s) (hsrc : s.srcBytes = [Config.emptyMarker]) :
    exec .unpack s = .next (endedEmpty s .ok 0) := by
  rw [exec_unpack_of_stream hr hsrc, unpackStream, if_pos ⟨rfl, rfl⟩]
  rfl

/-- A header in 1..8 with as many bits after it is accepted, and so is a table of distinct codes (45_bit_unpacker.md R243,
R244, R246). -/
theorem unpackStream_of_accepted (hpos : 1 ≤ h.toNat) (hle : h.toNat ≤ 8) (hpad : h.toNat ≤ 8 * bs.length)
    (hdist : DistinctCodes s.code) :
    unpackStream s (h :: bs) h = unpackPayload s (codeList s.code) (h :: bs) h.toNat := by
  have hmarker : ¬ ((h :: bs).length = 1 ∧ h = Config.emptyMarker) := by
    rintro ⟨-, rfl⟩
    exact absurd hle (by decide)
  rw [unpackStream, if_neg hmarker, if_neg (by omega), if_neg (by rw [List.length_cons]; omega),
    firstDup_eq_none (codeList_pairwise_ne hdist)]

theorem payloadOf_cons (k : Nat) : payloadOf (h :: bs) k = (bytesBits bs).take (8 * bs.length - k) := by
  have hdrop : (bytesBits (h :: bs)).drop 8 = bytesBits bs := by
    rw [bytesBits_cons, List.drop_append_of_le_length (length_byteBits h).ge, List.drop_of_length_le (length_byteBits h).le,
      List.nil_append]
  rw [payloadOf, hdrop]
  rfl

/-- A byte sequence whose first eight bits are the number `n` begins with the byte `n` (45_bit_unpacker.md R242). -/
theorem eq_cons_of_bytesBits {src : List Byte} {n : Nat} {c : BitString} (hn : n < 256)
    (h : bytesBits src = msbBits n 8 ++ c) : ∃ bs, src = byteOf n :: bs ∧ bytesBits bs = c := by
  cases src with
  | nil => cases h
  | cons b bs =>
    rw [bytesBits_cons] at h
    obtain ⟨hb, hbs⟩ := List.append_inj h (by rw [length_byteBits, length_msbBits])
    obtain ⟨-, hval⟩ := (byteBits_eq_iff b _).mp hb
    rw [bitsVal_msbBits, Nat.mod_eq_of_lt (b := 2 ^ 8) hn] at hval
    exact ⟨bs, by rw [hval, byteOf_toNat], hbs⟩

/-- UNPACK of header, codes of a text and padding of any bits writes the text (45_bit_unpacker.md R242, R244, R248,
R252). -/
theorem exec_unpack_of_framed (hr : RangesOk s) (hfree : PrefixFree s.code) (hcoded : AllCoded s.code text)
    (hpos : 1 ≤ tail.length) (hle : tail.length ≤ 8)
    (hbits : bytesBits s.srcBytes = msbBits tail.length 8 ++ textCode s.code text ++ tail)
    (hroom : text.length ≤ s.dstCap.toNat) :
    exec .unpack s = .next { ended s .ok 0 with
      outLen := wordOf text.length
      pad := byteOf tail.length
      payloadBits := wordOf (textBits s.code text)
      dmem := s.dmem.writeBytes s.dstAddr.toNat text } := by
  obtain ⟨bs, hsrc, hbs⟩ := eq_cons_of_bytesBits (by omega) (hbits.trans (List.append_assoc _ _ _))
  have hheader : (byteOf tail.length).toNat = tail.length := toNat_byteOf (by omega)
  have hlen : 8 * bs.length = textBits s.code text + tail.length := by
    rw [← length_bytesBits, hbs, List.length_append, length_textCode]
  have hcount : 8 * bs.length - tail.length = textBits s.code text := by omega
  have hpayload : payloadOf (byteOf tail.length :: bs) tail.length = textCode s.code text := by
    rw [payloadOf_cons, hbs, hcount, List.take_left' (length_textCode s.code text)]
  have hdist := distinctCodes_of_prefixFree hfree
  have hscan := scan_textCode hdist hcoded (fun x hx y cy hy hp => eq_of_prefix_bits hfree (hcoded x hx) hy hp) s.dmem
    s.dstAddr.toNat 0 (k := 0) ((Nat.zero_add _).trans_le hroom) []
  rw [exec_unpack_of_stream hr hsrc,
    unpackStream_of_accepted (s := s.clearResults) (by omega) (by omega) (by omega) hdist, hheader]
  simp only [unpackPayload, hpayload, State.clearResults_code, State.clearResults_dmem, State.clearResults_dstAddr,
    State.clearResults_dstCap, List.length_cons, Nat.add_sub_cancel, hcount]
  rw [List.append_nil] at hscan
  simp only [hscan, scan, if_true, Nat.zero_add, Nat.add_zero]
  rfl

end Stream

/-! ### The round trip -/

/-- Settles O46: a text's stream is a framed text with zeros for its padding, and the marker is the stream of the empty
text. -/
theorem unpackInvertsPack : Obligations.UnpackInvertsPack := by
  intro s t u hpack hok hfree hsame hdmem hpower _ hsrcAddr hsrcLen hru hroom
  obtain ⟨hframe, -⟩ := packAndUnpackKeepTheRest .pack s t (.inl rfl) hpack
  have haddr : t.dstAddr = s.dstAddr := (congrArg State.dstAddr hframe :)
  have hcode : u.code = s.code := hsame.trans (congrArg State.code hframe :)
  have hsource : u.srcBytes = t.memBytes s.dstAddr.toNat t.outLen.toNat := by
    simp only [State.srcBytes, State.memBytes, memRead_congr hdmem hpower, hsrcAddr, haddr, hsrcLen]
  obtain ⟨hr, ⟨hlen, hcap⟩ | ⟨hne, hcoded, hcap⟩⟩ := exec_pack_ok hpack hok
  case inl =>
    obtain ⟨hmarker, -⟩ := packOfNothingWritesTheMarker s hr hlen
    obtain ⟨t', hpack', ht, hbyte, -⟩ := hmarker hcap
    cases hpack.symm.trans hpack'
    have hout : t.outLen = 1 := (congrArg State.outLen ht :)
    have hstream : u.srcBytes = [Config.emptyMarker] := by
      rw [hsource, hout]
      exact congrArg (fun b => [b]) hbyte
    refine ⟨_, exec_unpack_of_marker hru hstream, rfl, hlen.symm, ?_⟩
    rw [State.srcBytes, hlen]
    rfl
  case inr =>
    obtain ⟨t', hpack', ht, hbits, -⟩ := packFramesThePayload s hr hne hcoded hcap
    cases hpack.symm.trans hpack'
    have hout : t.outLen = wordOf (textBits s.code s.srcBytes / 8 + 2) := (congrArg State.outLen ht :)
    have hstream : u.srcBytes = t.memBytes s.dstAddr.toNat (textBits s.code s.srcBytes / 8 + 2) := by
      rw [hsource, hout, toNat_wordOf (hcap.trans_lt s.dstCap.isLt)]
    have hunpack := exec_unpack_of_framed (s := u) (text := s.srcBytes) (tail := zeros (8 - textBits s.code s.srcBytes % 8))
      hru (hcode ▸ hfree) (hcode ▸ hcoded) (by rw [length_zeros]; omega) (by rw [length_zeros]; omega)
      (by rw [hstream, hbits, hcode, length_zeros]) ((srcBytes_length s).trans_le hroom)
    refine ⟨_, hunpack, rfl, ?_, ?_⟩
    · exact BitVec.eq_of_toNat_eq ((toNat_wordOf ((srcBytes_length s).trans_lt s.srcLen.isLt)).trans (srcBytes_length s))
    · rw [← srcBytes_length s]
      exact memBytes_of_writeBytes rfl

end Sys2Proof.Machine
end

section
/-! PROOFS. UNPACK: a framed text, and the streams and tables it accepts or refuses before any output (45_bit_unpacker.md
R242 to R246). -/

namespace Sys2Proof.Machine

open Sys2Proof.Safety

/-! ### The text of a framed stream -/

/-- Settles O45: the scan writes the text as one run of bytes, which reads back, and no byte outside it. -/
theorem unpackDecodesAFramedText : Obligations.UnpackDecodesAFramedText := by
  intro s text tail hr hfree hcoded hpos hle hbits hroom
  exact ⟨_, exec_unpack_of_framed hr hfree hcoded hpos hle hbits hroom, rfl, memBytes_of_writeBytes rfl,
    SameOutside.of_find rfl fun x hx => find_writeBytes_outside _ _ hx⟩

/-! ### Headers -/

section Header

variable {s : State} {h : Byte} {bs : List Byte}

theorem srcBytes_eq_cons (hne : s.srcLen.toNat ≠ 0) :
    s.srcBytes = s.memRead s.srcAddr.toNat :: s.memBytes (s.srcAddr.toNat + 1) (s.srcLen.toNat - 1) := by
  obtain ⟨n, hn⟩ := Nat.exists_eq_succ_of_ne_zero hne
  simp only [State.srcBytes, State.memBytes, hn, Nat.succ_eq_add_one, List.range_succ_eq_map, List.map_cons, List.map_map,
    Nat.add_zero, Nat.add_sub_cancel]
  exact congrArg _ (List.map_congr_left fun i _ => congrArg s.memRead (by omega))

/-- A source of one or more bytes is unpacked as the stream that begins with its first byte. -/
theorem exec_unpack_of_source (hr : RangesOk s) (hne : s.srcLen.toNat ≠ 0) :
    exec .unpack s = .next (unpackStream s.clearResults
      (s.memRead s.srcAddr.toNat :: s.memBytes (s.srcAddr.toNat + 1) (s.srcLen.toNat - 1)) (s.memRead s.srcAddr.toNat)) :=
  exec_unpack_of_stream hr (srcBytes_eq_cons hne)

/-- A stream without a byte has no header (45_bit_unpacker.md R243). -/
theorem exec_unpack_of_no_header (hr : RangesOk s) (hlen : s.srcLen = 0) :
    exec .unpack s = .next (endedEmpty s .noHeader 0) := by
  have hsrc : s.srcBytes = [] := by rw [State.srcBytes, hlen]; rfl
  simp only [exec, execUnpack, unpackCleared, rangeError_clearResults, (rangeError_eq_none_iff s).mpr hr,
    srcBytes_clearResults, hsrc]
  rfl

/-- The marker is no header (45_bit_unpacker.md R243, R245). -/
theorem ne_emptyMarker_of_le (hle : h.toNat ≤ 8) : h ≠ Config.emptyMarker := by
  rintro rfl
  exact absurd hle (by decide)

/-- A header outside 1..8, or greater than the number of bits after it, is refused, the marker aside (45_bit_unpacker.md
R243, R244). -/
theorem unpackStream_of_badHeader (hmarker : ¬ (bs.length = 0 ∧ h = Config.emptyMarker))
    (hbad : ¬ (1 ≤ h.toNat ∧ h.toNat ≤ 8) ∨ 8 * bs.length < h.toNat) :
    unpackStream s (h :: bs) h = s.raise .badHeader (h.setWidth 32) := by
  rw [unpackStream, if_neg (by rwa [List.length_cons, Nat.add_eq_right]), List.length_cons, Nat.add_sub_cancel]
  by_cases hrange : h.toNat < 1 ∨ 8 < h.toNat
  · rw [if_pos hrange]
  · rw [if_neg hrange, if_pos (by omega)]

/-- An accepted header with two symbols of equal codes: the least pair is reported (45_bit_unpacker.md R246). -/
theorem unpackStream_of_dup {x y : Byte} (hpos : 1 ≤ h.toNat) (hle : h.toNat ≤ 8) (hpad : h.toNat ≤ 8 * bs.length)
    (hdup : firstDup (codeList s.code) = some (x, y)) :
    unpackStream s (h :: bs) h = s.raise .tableDup (wordOf (x.toNat + 256 * y.toNat)) := by
  have hmarker : ¬ ((h :: bs).length = 1 ∧ h = Config.emptyMarker) := fun hm => ne_emptyMarker_of_le hle hm.2
  rw [unpackStream, if_neg hmarker, if_neg (by omega), if_neg (by rw [List.length_cons]; omega), hdup]

end Header

/-- Settles O42: the marker is the whole source. -/
theorem unpackAcceptsTheEmptyMarker : Obligations.UnpackAcceptsTheEmptyMarker := by
  intro s hr hlen hbyte
  refine exec_unpack_of_marker hr ?_
  rw [srcBytes_eq_cons (by rw [hlen]; decide), hbyte, hlen]
  rfl

/-- Settles O43: without a byte there is no header; the header checks come before any output. -/
theorem unpackRefusesBadHeaders : Obligations.UnpackRefusesBadHeaders := by
  rintro s h hr rfl
  refine ⟨exec_unpack_of_no_header hr, fun hne hmarker hbad => ?range, fun hlen hpos hle => ?oneByte⟩
  case range =>
    have hne' : s.srcLen.toNat ≠ 0 := fun hzero => hne (BitVec.eq_of_toNat_eq hzero)
    rw [exec_unpack_of_source hr hne', unpackStream_of_badHeader ?_ (.inl hbad)]
    · rfl
    · rintro ⟨hzero, hbyte⟩
      rw [memBytes_length] at hzero
      exact hmarker ⟨BitVec.eq_of_toNat_eq (show s.srcLen.toNat = 1 by omega), hbyte⟩
  case oneByte =>
    have hone : s.srcLen.toNat = 1 := by rw [hlen]; rfl
    rw [exec_unpack_of_source hr (by omega),
      unpackStream_of_badHeader (fun hm => ne_emptyMarker_of_le hle hm.2) (.inr (by rw [memBytes_length]; omega))]
    rfl

/-! ### Duplicate codes -/

theorem map_byteOf_ascending : ((List.range 256).map byteOf).Pairwise (· < ·) := by
  refine List.pairwise_map.mpr (List.pairwise_lt_range.imp_of_mem fun {i j} hi hj hij => ?_)
  rwa [BitVec.lt_def, toNat_byteOf (List.mem_range.mp hi), toNat_byteOf (List.mem_range.mp hj)]

/-- UNPACK's list of codes is in ascending symbol order (45_bit_unpacker.md R246). -/
theorem codeList_ascending (t : CodeTable) : (codeList t).Pairwise fun e f => e.1 < f.1 := by
  rw [codeList_eq]
  refine List.Pairwise.filterMap _ (fun x y hlt e he f hf => ?_) map_byteOf_ascending
  obtain ⟨-, -, rfl⟩ := Option.map_eq_some_iff.mp he
  obtain ⟨-, -, rfl⟩ := Option.map_eq_some_iff.mp hf
  exact hlt

/-- The first entry with code `c` in a list in ascending symbol order is that of the least symbol with this code. -/
theorem le_of_find?_code {codes : List (Byte × BitString)} {c : BitString} {f : Byte × BitString} {y : Byte}
    (hasc : codes.Pairwise fun e f => e.1 < f.1) (hfind : codes.find? (fun e => e.2 == c) = some f)
    (hy : (y, c) ∈ codes) : f.1 ≤ y := by
  obtain ⟨-, before, after, rfl, hbefore⟩ := List.find?_eq_some_iff_append.mp hfind
  obtain ⟨-, htail, -⟩ := List.pairwise_append.mp hasc
  obtain ⟨hafter, -⟩ := List.pairwise_cons.mp htail
  rcases List.mem_append.mp hy with hmem | hmem
  · exact absurd (beq_self_eq_true c) (by simpa using hbefore _ hmem)
  · rcases List.mem_cons.mp hmem with heq | hmem
    · cases heq
      exact BitVec.le_refl _
    · exact BitVec.le_of_lt (hafter _ hmem)

/-- In a list in ascending symbol order, `first_dup()` is the least pair of symbols with equal codes (45_bit_unpacker.md
R246). -/
theorem firstDup_eq_some {codes : List (Byte × BitString)} (hasc : codes.Pairwise fun e f => e.1 < f.1) {x y : Byte}
    {c : BitString} (hx : (x, c) ∈ codes) (hy : (y, c) ∈ codes) (hlt : x < y)
    (hleast : ∀ x' y' d, (x', d) ∈ codes → (y', d) ∈ codes → x' < y' → x < x' ∨ (x = x' ∧ y ≤ y')) :
    firstDup codes = some (x, y) := by
  induction codes with
  | nil => cases hx
  | cons e rest ih =>
    obtain ⟨z, d⟩ := e
    obtain ⟨hz, hrest⟩ := List.pairwise_cons.mp hasc
    have hy' : (y, c) ∈ rest := by
      refine (List.mem_cons.mp hy).resolve_left fun hyz => ?_
      cases hyz
      rcases List.mem_cons.mp hx with hxz | hx
      · cases hxz
        exact BitVec.lt_irrefl _ hlt
      · exact BitVec.lt_asymm hlt (hz _ hx)
    rw [firstDup]
    cases hfind : rest.find? (fun f => f.2 == d) with
    | some f =>
      have hf := List.mem_of_find?_eq_some hfind
      have hmatch := List.find?_some hfind
      have hcode : f.2 = d := beq_iff_eq.mp hmatch
      have hpair := hleast z f.1 d List.mem_cons_self (List.mem_cons_of_mem _ (hcode ▸ hf)) (hz f hf)
      rcases List.mem_cons.mp hx with hxz | hx
      · cases hxz
        obtain ⟨-, hyf⟩ := hpair.resolve_left (BitVec.lt_irrefl x)
        exact congrArg some (Prod.ext rfl (BitVec.le_antisymm (le_of_find?_code hrest hfind hy') hyf))
      · have hzx : z < x := hz _ hx
        rcases hpair with hxz | ⟨rfl, -⟩
        · exact absurd hxz (BitVec.lt_asymm hzx)
        · exact absurd hzx (BitVec.lt_irrefl x)
    | none =>
      have hx' : (x, c) ∈ rest := by
        refine (List.mem_cons.mp hx).resolve_left fun hxz => ?_
        cases hxz
        exact List.find?_eq_none.mp hfind _ hy' (beq_self_eq_true c)
      exact ih hrest hx' hy' fun x' y' d' hx' hy' =>
        hleast x' y' d' (List.mem_cons_of_mem _ hx') (List.mem_cons_of_mem _ hy')

/-- Settles O44: the list of codes is in ascending symbol order, and the table check comes before any output. -/
theorem unpackRefusesDuplicateCodes : Obligations.UnpackRefusesDuplicateCodes := by
  intro s x y hr hlen hpos hle hlt hne heq hleast
  obtain ⟨c, hx⟩ := Option.ne_none_iff_exists'.mp hne
  have hdup : firstDup (codeList s.code) = some (x, y) := by
    refine firstDup_eq_some (codeList_ascending s.code) ((mem_codeList_iff x c).mpr hx)
      ((mem_codeList_iff y c).mpr (heq.symm.trans hx)) hlt fun x' y' d hx' hy' hlt' => ?_
    rw [mem_codeList_iff] at hx' hy'
    exact hleast x' y' hlt' (Option.ne_none_iff_exists'.mpr ⟨d, hx'⟩) (hx'.trans hy'.symm)
  rw [exec_unpack_of_source hr (by omega),
    unpackStream_of_dup (s := s.clearResults) hpos hle (by rw [memBytes_length]; omega) hdup]
  rfl

end Sys2Proof.Machine
end

section
/-! PROOFS. UNPACK of any payload under a table of distinct codes: the text its beginning decodes to, and how the scan ends
on what is left (45_bit_unpacker.md R248 to R255). -/

namespace Sys2Proof.Machine

open Sys2Proof.Safety

/-! ### What a payload decodes to -/

/-- No other symbol's code begins the code of `x`: where it begins the bits, it is the shortest that matches
(45_bit_unpacker.md R248). -/
def NoShorterCode (t : CodeTable) (x : Byte) : Prop := ∀ y cy, codeOf t y = some cy → cy <+: (entryOf t x).bits → y = x

/-- Matching codes off the beginning of `bits`, each the shortest that matches, until none matches or `cap` bytes are
written, gives `text` and leaves `rest` (45_bit_unpacker.md R248, R249). -/
structure DecodesTo (t : CodeTable) (cap : Nat) (bits : BitString) (text : List Byte) (rest : BitString) : Prop where
  coded : AllCoded t text
  split : bits = textCode t text ++ rest
  shortest : ∀ x ∈ text, NoShorterCode t x
  fits : text.length ≤ cap
  ended : NoCodeBegins t rest ∨ text.length = cap

section Decoding

variable {t : CodeTable}

/-- Of the codes that begin some bits one is the shortest, and with distinct codes no other begins it. -/
theorem exists_shortest_code (hdist : DistinctCodes t) {bits : BitString} (h : ¬ NoCodeBegins t bits) :
    ∃ x, (entryOf t x).len ≠ 0 ∧ (entryOf t x).bits <+: bits ∧ NoShorterCode t x := by
  classical
  have hex : ∃ n x c, codeOf t x = some c ∧ c <+: bits ∧ c.length = n := by
    simp only [NoCodeBegins, not_forall, not_not] at h
    obtain ⟨x, c, hx, hc⟩ := h
    exact ⟨_, x, c, hx, hc, rfl⟩
  obtain ⟨x, c, hx, hc, hlen⟩ := Nat.find_spec hex
  obtain ⟨hcoded, rfl⟩ := (codeOf_eq_some_iff t x c).mp hx
  refine ⟨x, hcoded, hc, fun y cy hy hcy => ?_⟩
  have hle := Nat.find_min' hex ⟨y, cy, hy, hcy.trans hc, rfl⟩
  obtain rfl := hcy.eq_of_length_le (hlen.trans_le hle)
  by_contra hne
  exact Option.some_ne_none _ (hy.symm.trans (hdist y x hne (hy.trans hx.symm)))

theorem exists_decodesTo (hdist : DistinctCodes t) (cap : Nat) (bits : BitString) :
    ∃ text rest, DecodesTo t cap bits text rest := by
  induction cap generalizing bits with
  | zero => exact ⟨[], bits, by simp [AllCoded], rfl, by simp, le_rfl, .inr rfl⟩
  | succ cap ih =>
    by_cases hno : NoCodeBegins t bits
    · exact ⟨[], bits, by simp [AllCoded], rfl, by simp, Nat.zero_le _, .inl hno⟩
    · obtain ⟨x, hx, ⟨bits', rfl⟩, hshort⟩ := exists_shortest_code hdist hno
      obtain ⟨text, rest, hdec⟩ := ih bits'
      exact ⟨x :: text, rest,
        { coded := (allCoded_cons_iff t x text).mpr ⟨hx, hdec.coded⟩
          split := by rw [textCode_cons, List.append_assoc, ← hdec.split]
          shortest := List.forall_mem_cons.mpr ⟨hshort, hdec.shortest⟩
          fits := Nat.succ_le_succ hdec.fits
          ended := hdec.ended.imp_right (congrArg (· + 1)) }⟩

theorem codeBits_ne_nil {e : CodeEntry} (h : e.len ≠ 0) : e.bits ≠ [] := by
  rw [ne_eq, ← List.length_eq_zero_iff, length_codeBits]
  exact fun hzero => h (BitVec.eq_of_toNat_eq hzero)

/-- Nothing shorter than a shortest code matches. -/
theorem matchCode_eq_none_of_shortest {x : Byte} (hx : (entryOf t x).len ≠ 0) (hshort : NoShorterCode t x)
    {p : BitString} (hp : p <+: (entryOf t x).bits) (hne : p ≠ (entryOf t x).bits) : matchCode (codeList t) p = none := by
  refine (matchCode_eq_none_iff p).mpr fun y hy => hne ?_
  obtain rfl := hshort y p hy hp
  exact Option.some.inj (hy.symm.trans ((codeOf_eq_some_iff t y _).mpr ⟨hx, rfl⟩))

theorem matchCode_eq_none_of_prefix {bits p : BitString} (h : NoCodeBegins t bits) (hp : p <+: bits) :
    matchCode (codeList t) p = none :=
  (matchCode_eq_none_iff p).mpr fun x hx => h x p hx hp

end Decoding

/-! ### How the scan ends -/

/-- Bits none of whose beginnings matches extend the candidate (45_bit_unpacker.md R248). -/
theorem scan_of_no_match {codes : List (Byte × BitString)} {cand c : BitString}
    (hnone : ∀ p, p <+: c → p ≠ [] → matchCode codes (cand ++ p) = none)
    (hlen : cand.length + c.length < Config.maxCodeLen) (m : Memory) (dst cap q start k : Nat) (rest : BitString) :
    scan codes dst cap (c ++ rest) q ⟨m, cand, start, k⟩ =
      scan codes dst cap rest (q + c.length) ⟨m, cand ++ c, start, k⟩ := by
  induction c generalizing cand q with
  | nil => rw [List.nil_append, List.append_nil, List.length_nil, Nat.add_zero]
  | cons b c ih =>
    rw [List.length_cons] at hlen
    have hfirst : matchCode codes (cand ++ [b]) = none :=
      hnone [b] (List.prefix_append [b] c) (List.cons_ne_nil b [])
    have hlen' : (cand ++ [b]).length + c.length < Config.maxCodeLen := by
      rw [List.length_append, List.length_singleton]
      omega
    have hnone' (p : BitString) (hp : p <+: c) (_ : p ≠ []) : matchCode codes (cand ++ [b] ++ p) = none := by
      rw [List.append_assoc]
      exact hnone (b :: p) ((List.prefix_cons_inj b).mpr hp) (List.cons_ne_nil b p)
    rw [List.cons_append, scan]
    simp only [hfirst, if_neg (show ¬ (cand ++ [b]).length = Config.maxCodeLen by omega)]
    rw [ih hnone' hlen', List.append_assoc, List.singleton_append, List.length_cons, Nat.add_right_comm, Nat.add_assoc]

/-- How the scan ends with `rest` left of the payload from bit index `q` on, and `k` of `cap` bytes written
(45_bit_unpacker.md R249 to R252). -/
inductive ScanEnd (t : CodeTable) (k cap q : Nat) (rest : BitString) : Option (ErrCode × Nat) → Prop where
  | complete (hrest : rest = []) : ScanEnd t k cap q rest none
  | trailingBits (hrest : rest ≠ []) (hlen : rest.length < 255) (hno : NoCodeBegins t rest) :
      ScanEnd t k cap q rest (some (.trailingBits, q))
  | codeOverrun (hlen : 255 ≤ rest.length) (hno : NoCodeBegins t rest) : ScanEnd t k cap q rest (some (.codeOverrun, q))
  | outOverflow (hfull : k = cap) (hcode : ¬ NoCodeBegins t rest) : ScanEnd t k cap q rest (some (.outOverflow, q))

section End

variable {t : CodeTable} {rest : BitString} {k cap : Nat} (m : Memory) (dst q : Nat)

/-- Where no code begins the rest, the scan takes its bits into the candidate until they end or the candidate is as long
as a code can be. -/
theorem scan_of_noCodeBegins (hno : NoCodeBegins t rest) :
    ∃ cand r, scan (codeList t) dst cap rest q ⟨m, [], q, k⟩ = (⟨m, cand, q, k⟩, r) ∧ ScanEnd t k cap q rest r := by
  by_cases hlen : rest.length < 255
  · have hscan := scan_of_no_match (cand := []) (c := rest) (fun p hp _ => matchCode_eq_none_of_prefix hno hp)
      ((Nat.zero_add _).trans_lt hlen) m dst cap q q k []
    rw [List.append_nil, List.nil_append, scan] at hscan
    by_cases hrest : rest = []
    · exact ⟨rest, _, hscan, by rw [if_pos hrest]; exact .complete hrest⟩
    · exact ⟨rest, _, hscan, by rw [if_neg hrest]; exact .trailingBits hrest hlen hno⟩
  · obtain ⟨c, b, bits, rfl, hc⟩ : ∃ c b bits, rest = c ++ b :: bits ∧ c.length = 254 :=
      ⟨rest.take 254, rest[254], rest.drop 255, by simp, by rw [List.length_take]; omega⟩
    have hscan := scan_of_no_match (cand := []) (c := c)
      (fun p hp _ => matchCode_eq_none_of_prefix hno (hp.trans (List.prefix_append _ _)))
      (by rw [hc]; decide) m dst cap q q k (b :: bits)
    have hlast : matchCode (codeList t) (c ++ [b]) = none :=
      matchCode_eq_none_of_prefix hno ⟨bits, by rw [List.append_assoc]; rfl⟩
    have hfull : (c ++ [b]).length = Config.maxCodeLen := by rw [List.length_append, hc]; rfl
    rw [List.nil_append, scan] at hscan
    simp only [hlast, if_pos hfull] at hscan
    exact ⟨c, _, hscan, .codeOverrun (Nat.not_lt.mp hlen) hno⟩

/-- Where the window is full and a code begins the rest, the scan ends at that code's last bit. -/
theorem scan_of_full (hdist : DistinctCodes t) (hcode : ¬ NoCodeBegins t rest) (hfull : k = cap) :
    ∃ cand r, scan (codeList t) dst cap rest q ⟨m, [], q, k⟩ = (⟨m, cand, q, k⟩, r) ∧ ScanEnd t k cap q rest r := by
  obtain ⟨x, hx, ⟨bits, hrest⟩, hshort⟩ := exists_shortest_code hdist hcode
  have hlen : (entryOf t x).bits.length < 256 := (length_codeBits _).trans_lt (entryOf t x).len.isLt
  have hmatch := (matchCode_eq_some_iff hdist x _).mpr ((codeOf_eq_some_iff t x _).mpr ⟨hx, rfl⟩)
  obtain ⟨c, b, hbits⟩ : ∃ c b, (entryOf t x).bits = c ++ [b] :=
    ⟨_, _, (List.dropLast_append_getLast (codeBits_ne_nil hx)).symm⟩
  rw [hbits, List.length_append, List.length_singleton] at hlen
  have hnone (p : BitString) (hp : p <+: c) : matchCode (codeList t) p = none := by
    refine matchCode_eq_none_of_shortest hx hshort (hbits ▸ hp.trans (List.prefix_append _ _)) fun heq => ?_
    have := hp.length_le
    rw [heq, hbits, List.length_append, List.length_singleton] at this
    omega
  have hscan := scan_of_no_match (cand := []) (c := c) (fun p hp _ => hnone p hp)
    (by rw [List.length_nil, Config.maxCodeLen]; omega) m dst cap q q k ([b] ++ bits)
  rw [← List.append_assoc, ← hbits, hrest, List.nil_append, List.singleton_append, scan] at hscan
  rw [hbits] at hmatch
  simp only [hmatch, if_pos hfull] at hscan
  exact ⟨c, _, hscan, .outOverflow hfull hcode⟩

/-- The scan of bits that decode to a text writes the text, and ends by what is left (45_bit_unpacker.md R248 to R252). -/
theorem scan_of_decodesTo (hdist : DistinctCodes t) {bits : BitString} {text : List Byte}
    (hdec : DecodesTo t cap bits text rest) :
    ∃ cand r, scan (codeList t) dst cap bits 0 ⟨m, [], 0, 0⟩ =
        (⟨m.writeBytes dst text, cand, textBits t text, text.length⟩, r) ∧
      ScanEnd t text.length cap (textBits t text) rest r := by
  obtain ⟨hcoded, rfl, hshort, hfits, hended⟩ := hdec
  have hscan := scan_textCode hdist hcoded hshort m dst 0 ((Nat.zero_add _).trans_le hfits) rest
  rw [Nat.zero_add, Nat.zero_add, Nat.add_zero] at hscan
  rw [hscan]
  by_cases hno : NoCodeBegins t rest
  · exact scan_of_noCodeBegins _ dst _ hno
  · exact scan_of_full _ dst _ hdist hno (hended.resolve_left hno)

end End

/-! ### UNPACK of any payload -/

/-- The code and ERR_INFO that UNPACK completes with when its scan ended in `r` (45_bit_unpacker.md R241). -/
def scanOutcome (r : Option (ErrCode × Nat)) : ErrCode × Word :=
  match r with
  | none => (.ok, 0)
  | some (e, n) => (e, wordOf n)

theorem unpackPayload_of_scan {s : State} {codes : List (Byte × BitString)} {bs : List Byte} {h : Nat} {w : ScanWork}
    {r : Option (ErrCode × Nat)}
    (hscan : scan codes s.dstAddr.toNat s.dstCap.toNat (payloadOf bs h) 0 ⟨s.dmem, [], 0, 0⟩ = (w, r)) :
    unpackPayload s codes bs h =
      (s.putScan w h (8 * (bs.length - 1) - h)).raise (scanOutcome r).1 (scanOutcome r).2 := by
  simp only [unpackPayload, hscan]
  cases r <;> rfl

theorem srcPayload_eq (s : State) (h : Nat) : srcPayload s h = payloadOf s.srcBytes h := by
  rw [srcPayload, payloadOf, srcBytes_length]

theorem length_srcPayload (s : State) (h : Nat) : (srcPayload s h).length = 8 * (s.srcLen.toNat - 1) - h := by
  rw [srcPayload, List.length_take, List.length_drop, length_bytesBits, srcBytes_length]
  omega

/-- UNPACK of a stream with an accepted header and a table of distinct codes ends as its scan does. -/
theorem exec_unpack_of_scan {s : State} {h : Byte} {w : ScanWork} {r : Option (ErrCode × Nat)} (hr : RangesOk s)
    (hlen : 2 ≤ s.srcLen.toNat) (hh : h = s.memRead s.srcAddr.toNat) (hpos : 1 ≤ h.toNat) (hle : h.toNat ≤ 8)
    (hdist : DistinctCodes s.code)
    (hscan : scan (codeList s.code) s.dstAddr.toNat s.dstCap.toNat (srcPayload s h.toNat) 0 ⟨s.dmem, [], 0, 0⟩ = (w, r)) :
    exec .unpack s = .next ((s.clearResults.putScan w h.toNat (srcPayload s h.toNat).length).raise
      (scanOutcome r).1 (scanOutcome r).2) := by
  rw [srcPayload_eq, srcBytes_eq_cons (by omega), ← hh] at hscan
  rw [exec_unpack_of_source hr (by omega), ← hh,
    unpackStream_of_accepted (s := s.clearResults) hpos hle (by rw [memBytes_length]; omega) hdist,
    unpackPayload_of_scan (s := s.clearResults) (codes := codeList s.clearResults.code) hscan, length_srcPayload,
    List.length_cons, memBytes_length, Nat.add_sub_cancel]

/-- Settles O47: the payload decodes to a text and a rest, and the scan finds both. -/
theorem unpackWritesTheDecodedPrefix : Obligations.UnpackWritesTheDecodedPrefix := by
  rintro s t _ hr hlen rfl hpos hle hdist hexec
  obtain ⟨text, rest, hdec⟩ := exists_decodesTo hdist s.dstCap.toNat (srcPayload s (s.memRead s.srcAddr.toNat).toNat)
  obtain ⟨cand, r, hscan, hend⟩ := scan_of_decodesTo s.dmem s.dstAddr.toNat hdist hdec
  obtain rfl := Host.Outcome.next.inj ((exec_unpack_of_scan hr hlen rfl hpos hle hdist hscan).symm.trans hexec)
  obtain ⟨hcoded, hsplit, hshort, hfits, -⟩ := hdec
  refine ⟨text, rest, hcoded, hsplit, hshort, toNat_wordOf (hfits.trans_lt s.dstCap.isLt), hfits,
    memBytes_of_writeBytes rfl, toNat_byteOf (by omega), toNat_wordOf ?payloadBits, ?ending⟩
  case payloadBits =>
    obtain ⟨hsrc, -⟩ := hr
    have := s.pow_aw_le
    rw [length_srcPayload]
    omega
  case ending =>
    cases hend with
    | complete hrest => exact .inl ⟨rfl, hrest, rfl⟩
    | trailingBits hrest hlen hno => exact .inr ⟨rfl, .inl ⟨rfl, hrest, hlen, hno⟩⟩
    | codeOverrun hlen hno => exact .inr ⟨rfl, .inr (.inl ⟨rfl, hlen, hno⟩)⟩
    | outOverflow hfull hcode => exact .inr ⟨rfl, .inr (.inr ⟨rfl, hfull, hcode⟩)⟩

end Sys2Proof.Machine
end

section
/-! PROOFS. The Host's persisted code table (46_host_interface.md R270 to R275): the fields of a line, what reading gives
back of an escaped symbol, of code characters and of a record's line, and the lines of a table. -/

namespace Sys2Proof.Machine

open Sys2Proof.Safety

/-! ### Fields -/

@[simp] theorem isSpace_chSpace : isSpace chSpace = true := by decide

/-- Characters that are no white space go to the end of the field being read. -/
theorem fieldsFrom_append {f : List Byte} (hf : ∀ b ∈ f, isSpace b = false) (cur line : List Byte) :
    fieldsFrom cur (f ++ line) = fieldsFrom (cur ++ f) line := by
  induction f generalizing cur with
  | nil => rw [List.nil_append, List.append_nil]
  | cons b f ih =>
    obtain ⟨hb, hf⟩ := List.forall_mem_cons.mp hf
    rw [List.cons_append, fieldsFrom, if_neg (by simp [hb]), ih hf, List.append_assoc, List.singleton_append]

/-- A line of two fields with one space between them is split into the two. -/
theorem fieldsOf_append_chSpace {f g : List Byte} (hf : ∀ b ∈ f, isSpace b = false) (hg : ∀ b ∈ g, isSpace b = false)
    (hfne : f ≠ []) (hgne : g ≠ []) : fieldsOf (f ++ chSpace :: g) = [f, g] := by
  have hlast : fieldsFrom [] g = [g] := by
    have h := fieldsFrom_append hg [] []
    rw [List.append_nil, List.nil_append] at h
    rw [h, fieldsFrom, if_neg hgne]
  rw [fieldsOf, fieldsFrom_append hf, List.nil_append, fieldsFrom, if_pos isSpace_chSpace, if_neg hfne, hlast]

/-! ### The symbol field -/

/-- The three forms of a symbol field (46_host_interface.md R272). -/
theorem escapeSymbol_cases (x : Byte) :
    (x = chNewline ∧ escapeSymbol x = [chBackslash, chN]) ∨ (x = chSpace ∧ escapeSymbol x = [chBackslash, chS]) ∨
      (x ≠ chNewline ∧ x ≠ chSpace ∧ escapeSymbol x = [x]) := by
  by_cases hn : x = chNewline
  · exact .inl ⟨hn, if_pos hn⟩
  · by_cases hs : x = chSpace
    · exact .inr (.inl ⟨hs, (if_neg hn).trans (if_pos hs)⟩)
    · exact .inr (.inr ⟨hn, hs, (if_neg hn).trans (if_neg hs)⟩)

theorem escapeSymbol_ne_nil (x : Byte) : escapeSymbol x ≠ [] := by
  obtain ⟨-, h⟩ | ⟨-, h⟩ | ⟨-, -, h⟩ := escapeSymbol_cases x <;> exact h ▸ List.cons_ne_nil _ _

/-- The symbol field of a persistable symbol holds no white space. -/
theorem isSpace_of_mem_escapeSymbol {x : Byte} (hx : Persistable x) : ∀ b ∈ escapeSymbol x, isSpace b = false := by
  obtain ⟨-, h⟩ | ⟨-, h⟩ | ⟨hn, hs, h⟩ := escapeSymbol_cases x <;> rw [h]
  · decide
  · decide
  · exact List.forall_mem_singleton.mpr ((hx.resolve_left hn).resolve_left hs)

@[simp] theorem readSymbol_escapeSymbol (x : Byte) : readSymbol (escapeSymbol x) = some x := by
  obtain ⟨rfl, h⟩ | ⟨rfl, h⟩ | ⟨-, -, h⟩ := escapeSymbol_cases x <;> rw [h]
  · decide
  · decide
  · rfl

/-! ### The code field -/

theorem isSpace_chBit (b : Bool) : isSpace (chBit b) = false := by cases b <;> decide

@[simp] theorem readBit_chBit (b : Bool) : readBit (chBit b) = some b := by cases b <;> decide

@[simp] theorem readBits_map_chBit (c : BitString) : readBits (c.map chBit) = some c := by
  induction c with
  | nil => rfl
  | cons b c ih => simp only [List.map_cons, readBits, readBit_chBit, ih]

theorem readCode_map_chBit {c : BitString} (hc : codeWellFormed c = true) : readCode (c.map chBit) = some c := by
  simp only [readCode, readBits_map_chBit, if_pos hc]

theorem ne_nil_of_codeWellFormed {c : BitString} (hc : codeWellFormed c = true) : c ≠ [] :=
  List.ne_nil_of_length_pos ((codeWellFormed_iff c).mp hc).1

/-! ### The line of a record -/

theorem readLine_of_fields {line f g : List Byte} {x : Byte} {c : BitString} (hfields : fieldsOf line = [f, g])
    (hf : readSymbol f = some x) (hg : readCode g = some c) : readLine line = .ok (x, c) := by
  simp only [readLine, hfields, hf, hg]

theorem fieldsOf_recordLine {x : Byte} {c : BitString} (hx : Persistable x) (hc : c ≠ []) :
    fieldsOf (recordLine x c) = [escapeSymbol x, c.map chBit] :=
  fieldsOf_append_chSpace (isSpace_of_mem_escapeSymbol hx) (List.forall_mem_map.mpr fun b _ => isSpace_chBit b)
    (escapeSymbol_ne_nil x) (mt List.map_eq_nil_iff.mp hc)

theorem readLine_recordLine {x : Byte} {c : BitString} (hx : Persistable x) (hc : codeWellFormed c = true) :
    readLine (recordLine x c) = .ok (x, c) :=
  readLine_of_fields (fieldsOf_recordLine hx (ne_nil_of_codeWellFormed hc)) (readSymbol_escapeSymbol x)
    (readCode_map_chBit hc)

/-- The form of a line with its characters as numbers (46_host_interface.md R271, R272). -/
theorem recordLine_eq (x : Byte) (c : BitString) :
    recordLine x c = (if x = 0x0A then [0x5C, 0x6E] else if x = 0x20 then [0x5C, 0x73] else [x]) ++ [0x20] ++
      c.map (fun b => if b then 0x31 else 0x30) := by
  rw [List.append_assoc]
  rfl

/-- Settles O57: a line splits at its one space into the symbol field and the code field, and each reads back. -/
theorem persistedRecordReadsBack : Obligations.PersistedRecordReadsBack :=
  ⟨recordLine_eq, fun _ _ => readLine_recordLine⟩

/-! ### The lines of a table -/

/-- Lines that read as records of different symbols, none of them seen before, load as these records. -/
theorem readLines_map {line : Byte × BitString → List Byte} {rs seen : List (Byte × BitString)}
    (hread : ∀ r ∈ rs, readLine (line r) = .ok r) (hnodup : ((seen ++ rs).map Prod.fst).Nodup) :
    readLines seen (rs.map line) = .ok (seen ++ rs) := by
  induction rs generalizing seen with
  | nil => rw [List.map_nil, readLines, List.append_nil]
  | cons r rs ih =>
    obtain ⟨hr, hread⟩ := List.forall_mem_cons.mp hread
    have hnew : r.1 ∉ seen.map Prod.fst := by
      rw [List.map_append, List.map_cons] at hnodup
      exact fun hseen => List.disjoint_of_nodup_append hnodup hseen List.mem_cons_self
    rw [List.append_cons] at hnodup ⊢
    simp only [List.map_cons, readLines, hr, if_neg hnew, ih hread hnodup]

theorem codeList_nodup_symbols (t : CodeTable) : ((codeList t).map Prod.fst).Nodup :=
  List.pairwise_map.mpr ((codeList_ascending t).imp BitVec.ne_of_lt)

/-- A table's code has 1 to 255 bits (30_encoding.md R109). -/
theorem codeWellFormed_of_codeOf {t : CodeTable} {x : Byte} {c : BitString} (h : codeOf t x = some c) :
    codeWellFormed c = true := by
  obtain ⟨hlen, rfl⟩ := (codeOf_eq_some_iff t x c).mp h
  have hpos : (entryOf t x).len.toNat ≠ 0 := fun h0 => hlen (BitVec.eq_of_toNat_eq h0)
  have hlt := (entryOf t x).len.isLt
  rw [codeWellFormed_iff, length_codeBits]
  omega

/-- Settles O58: the lines of the code list read back one by one, and its ascending symbols are all different. -/
theorem persistedTableReloads : Obligations.PersistedTableReloads := by
  intro t hsyms
  have hread : ∀ r ∈ codeList t, readLine (recordLine r.1 r.2) = .ok r := by
    rintro ⟨x, c⟩ hmem
    have hcode := (mem_codeList_iff x c).mp hmem
    obtain ⟨hlen, -⟩ := (codeOf_eq_some_iff t x c).mp hcode
    exact readLine_recordLine (hsyms x hlen) (codeWellFormed_of_codeOf hcode)
  exact ⟨readLines_map (seen := []) hread (codeList_nodup_symbols t), mem_codeList_iff⟩

end Sys2Proof.Machine
end

section
/-! PROOFS. Idleness and the interrupt output: what takes the block from BUSY = 0 to BUSY = 1, and when irq is high
(60_exceptions.md R320, R335; 40_control.md R131). -/

namespace Sys2Proof.Machine

open Sys2Proof.Safety

variable {s t : State}

/-! ### Leaving the idle state -/

theorem busy_ne_of_starts (hidle : s.status.busy = false) (hbusy : t.status.busy = true) :
    t.status.busy ≠ s.status.busy := by
  rw [hidle, hbusy]
  decide

/-- Masking bits 1:0 off an offset gives the offset of its word (20_memory.md R70). -/
theorem toNat_offset_mask (o : Offset) : (o &&& 0xFFFC).toNat = o.toNat / 4 * 4 := by
  have hdiv := offset_mask_div o
  have hmod : (o &&& 0xFFFC).toNat % 4 = 0 := by
    rw [BitVec.toNat_and]
    exact (Nat.and_mod_two_pow (n := 2)).trans (Nat.and_zero _)
  omega

/-- The converse of `regAt_of_mask`. -/
theorem mask_of_regAt {o : Offset} {r : RegName} (h : regAt o = some r) : o &&& 0xFFFC = regOffset r :=
  BitVec.eq_of_toNat_eq ((toNat_offset_mask o).trans ((regAt_eq_some_iff o r).mp h))

/-- No register's write but that of CMD changes BUSY (40_control.md R140). -/
theorem putReg_busy (s : State) {r : RegName} (v : Word) (hcmd : r ≠ .cmd) :
    (s.putReg r v).status.busy = s.status.busy := by
  cases r with
  | cmd => exact absurd rfl hcmd
  | _ => rfl

/-- A register write that leaves BUSY = 0 for BUSY = 1 reached CMD and issued its word. -/
theorem hostWriteReg_starts {o : Offset} {v : Word} (hidle : s.status.busy = false)
    (hbusy : (s.hostWriteReg o v).status.busy = true) : regAt o = some .cmd ∧ s.hostWriteReg o v = s.issue v := by
  have hne := busy_ne_of_starts hidle hbusy
  obtain ⟨hb, -⟩ | ⟨-, -, h⟩ | ⟨-, r, hr, h⟩ := hostWriteReg_cases s o v
  · exact absurd (hb.symm.trans hidle) Bool.noConfusion
  · rw [h] at hne
    exact absurd rfl hne
  · by_cases hcmd : r = .cmd
    · subst hcmd
      exact ⟨hr, h⟩
    · rw [h] at hne
      exact absurd (putReg_busy s v hcmd) hne

theorem hostWriteDmem_busy (s : State) (a : Nat) (b : Byte) : (s.hostWriteDmem a b).status.busy = s.status.busy := by
  unfold State.hostWriteDmem
  split_ifs <;> rfl

/-- Of the Host's transactions only a CMD write leaves the idle state. -/
theorem transact_starts {y : Transaction} (h : s.transact y = .next t) (hidle : s.status.busy = false)
    (hbusy : t.status.busy = true) : ∃ o w, y = .wrReg o w ∧ regAt o = some .cmd ∧ t = s.issue w := by
  have hne := busy_ne_of_starts hidle hbusy
  obtain ⟨o, w, rfl, rfl⟩ | ⟨o, -, rfl⟩ | ⟨a, b, -, -, rfl⟩ | ⟨a, -, -, rfl⟩ := transact_cases h
  · exact ⟨o, w, rfl, hostWriteReg_starts hidle hbusy⟩
  · exact absurd rfl hne
  · exact absurd (hostWriteDmem_busy s a b) hne
  · exact absurd rfl hne

/-- A Host step that leaves the idle state made a CMD write; a WAIT changes the Host's record only. -/
theorem hostStep_starts (h : hostStep s = .next t) (hidle : s.status.busy = false) (hbusy : t.status.busy = true) :
    ∃ o w rest, s.program = .bus (.wrReg o w) :: rest ∧ regAt o = some .cmd ∧
      t = ({ s with program := rest } : State).issue w := by
  have hne := busy_ne_of_starts hidle hbusy
  obtain ⟨-, hs⟩ | ⟨y, rest, hprogram, hs⟩ | ⟨rest, -, -, hs⟩ | ⟨rest, -, -, hs⟩ := hostStep_eq s
  · cases hs.symm.trans h
    exact absurd rfl hne
  · obtain ⟨o, w, rfl, ho, ht⟩ := transact_starts (s := { s with program := rest }) (hs.symm.trans h) hidle hbusy
    exact ⟨o, w, rest, hprogram, ho, ht⟩
  · cases hs.symm.trans h
    exact absurd rfl hne
  · cases hs.symm.trans h
    exact absurd rfl hne

/-- An idle Core's step changes nothing (60_exceptions.md R335). -/
theorem coreStep_of_idle (hb : s.status.busy = false) : coreStep s = .next s := if_neg (Bool.eq_false_iff.mp hb)

/-- Settles O8: an idle Core does nothing, a reset and a power-on end with BUSY = 0, and of the Host's items only a CMD
write issues. -/
theorem onlyACmdWriteStartsTheCore : Obligations.OnlyACmdWriteStartsTheCore := by
  intro s t h hidle hbusy
  unfold step at h
  obtain ⟨-, h⟩ | ⟨-, h⟩ | ⟨-, rfl⟩ | ⟨-, rfl⟩ := takeTurn_cases h
  · obtain ⟨o, w, rest, hprogram, ho, rfl⟩ := hostStep_starts (s := s.setTurns _) h hidle hbusy
    exact ⟨o, w, rest, hprogram, mask_of_regAt ho, rfl, rfl⟩
  · cases (coreStep_of_idle (s := s.setTurns (nextTurn s).2) hidle).symm.trans h
    exact absurd rfl (busy_ne_of_starts hidle hbusy)
  · cases hbusy
  · cases hbusy

/-! ### The interrupt output -/

/-- A completion raises irq exactly where IE = 1 (60_exceptions.md R320). -/
theorem irq_raise (s : State) (e : ErrCode) (info : Word) : (s.raise e info).irq = s.ie := Bool.true_and _

/-- An issue clears DONE, so it ends irq (40_control.md R131). -/
theorem irq_issue (s : State) (w : Word) : (s.issue w).irq = false := Bool.false_and _

theorem irq_putReg_status (s : State) (v : Word) :
    (s.putReg .status v).irq = (s.status.done && !v.getLsbD 1 && s.ie) := rfl

theorem irq_putReg_irqEn (s : State) (v : Word) : (s.putReg .irqEn v).irq = (s.status.done && v.getLsbD 0) := rfl

/-- While a command is pending DONE = 0, so irq is low (20_memory.md R78). -/
theorem irq_of_pending (hs : StatusOk s) (hb : s.status.busy = true) : s.irq = false := by
  obtain ⟨hpend, -⟩ := hs
  obtain ⟨hdone, -⟩ := hpend hb
  rw [State.irq, hdone, Bool.false_and]

/-- Every command ends in a `raise` and keeps IE. -/
theorem irq_exec {i : Instr} (h : exec i s = .next t) : t.irq = s.ie := by
  obtain ⟨u, e, info, hc, rfl⟩ := exec_completes h
  obtain ⟨-, -, -, hie⟩ := hc.control_eq
  rw [irq_raise, hie]

theorem irq_hostWriteReg {r : RegName} (hb : s.status.busy = false) (v : Word) :
    (s.hostWriteReg (regOffset r) v).irq = (s.putReg r v).irq := by
  rw [hostWriteReg_of_idle hb (regAt_regOffset r)]

/-- Settles O19: each clause is the irq of one operation on STATUS or IE: a completion, an issue, or a write of STATUS or
IRQ_EN. -/
theorem irqFollowsDoneAndEnable : Obligations.IrqFollowsDoneAndEnable := by
  refine ⟨fun _ => rfl, fun s => irq_of_pending, fun i s t => irq_exec, fun s => ⟨_, rfl, irq_raise s _ _⟩,
    fun s v hb hv => ?_, fun s v hb hv => ?_, fun s w hb => ?_, fun s v hb hdone hv => ?_⟩
  · refine (irq_hostWriteReg (r := .status) hb v).trans ?_
    rw [irq_putReg_status, hv, Bool.not_true, Bool.and_false, Bool.false_and]
  · refine (irq_hostWriteReg (r := .irqEn) hb v).trans ?_
    rw [irq_putReg_irqEn, hv, Bool.and_false]
  · exact (irq_hostWriteReg (r := .cmd) hb w).trans (irq_issue s w)
  · refine (irq_hostWriteReg (r := .irqEn) hb v).trans ?_
    rw [irq_putReg_irqEn, hdone, hv, Bool.and_true]

end Sys2Proof.Machine
end

section
/-! PROOFS. The range errors of COUNT, PACK and UNPACK, in their order (20_memory.md R89; 60_exceptions.md R303, R311). -/

namespace Sys2Proof.Machine

open Sys2Proof.Safety

variable {s : State}

theorem dstInDmem_iff (s : State) : s.dstInDmem = true ↔ s.dstAddr.toNat + s.dstCap.toNat ≤ 2 ^ s.aw :=
  inDmem_iff s _ _

theorem srcInDmem_of_outside (h : 2 ^ s.aw < s.srcAddr.toNat + s.srcLen.toNat) : s.srcInDmem = false :=
  Bool.eq_false_iff.mpr fun hin => absurd ((srcInDmem_iff s).mp hin) (Nat.not_le.mpr h)

theorem dstInDmem_of_outside (h : 2 ^ s.aw < s.dstAddr.toNat + s.dstCap.toNat) : s.dstInDmem = false :=
  Bool.eq_false_iff.mpr fun hin => absurd ((dstInDmem_iff s).mp hin) (Nat.not_le.mpr h)

theorem rangeError_of_src_outside (hsrc : 2 ^ s.aw < s.srcAddr.toNat + s.srcLen.toNat) :
    s.rangeError = some (.bounds, 0) := by
  unfold State.rangeError
  rw [srcInDmem_of_outside hsrc]
  rfl

theorem rangeError_of_dst_outside (hsrc : s.srcAddr.toNat + s.srcLen.toNat ≤ 2 ^ s.aw)
    (hdst : 2 ^ s.aw < s.dstAddr.toNat + s.dstCap.toNat) : s.rangeError = some (.bounds, 1) := by
  unfold State.rangeError
  rw [(srcInDmem_iff s).mpr hsrc, dstInDmem_of_outside hdst]
  rfl

/-- Where both ranges lie in DMEM, what is left to go wrong is an overlap. -/
theorem rangeError_of_overlap (hsrc : s.srcAddr.toNat + s.srcLen.toNat ≤ 2 ^ s.aw)
    (hdst : s.dstAddr.toNat + s.dstCap.toNat ≤ 2 ^ s.aw) (hover : ¬ RangesOk s) : s.rangeError = some (.overlap, 0) := by
  have herr : s.rangeError ≠ none := mt (rangeError_eq_none_iff s).mp hover
  unfold State.rangeError at herr ⊢
  rw [(srcInDmem_iff s).mpr hsrc, (dstInDmem_iff s).mpr hdst] at herr ⊢
  cases ho : s.srcDstOverlap with
  | true => rfl
  | false =>
    rw [ho] at herr
    exact absurd rfl herr

theorem exec_unpack_of_rangeError {e : ErrCode} {info : Word} (h : s.rangeError = some (e, info)) :
    exec .unpack s = .next (endedEmpty s e info) := by
  simp only [exec, execUnpack, unpackCleared, rangeError_clearResults, h]
  rfl

/-- PACK and UNPACK report a range error alike, with nothing written but the zeroed results (60_exceptions.md R303). -/
theorem pack_unpack_of_rangeError {e : ErrCode} {info : Word} (h : s.rangeError = some (e, info)) :
    exec .pack s = .next (endedEmpty s e info) ∧ exec .unpack s = .next (endedEmpty s e info) :=
  ⟨exec_pack_of_rangeError h, exec_unpack_of_rangeError h⟩

/-- Settles O27: each clause names the first check of `rangeError` that fails. -/
theorem rangeErrorsComeFirst : Obligations.RangeErrorsComeFirst := by
  refine fun s => ⟨fun hsrc => ?_, fun hsrc hdst => ?_, fun hsrc hdst hover => ?_⟩
  · exact ⟨exec_count_of_outside hsrc, pack_unpack_of_rangeError (rangeError_of_src_outside hsrc)⟩
  · exact pack_unpack_of_rangeError (rangeError_of_dst_outside hsrc hdst)
  · exact pack_unpack_of_rangeError (rangeError_of_overlap hsrc hdst hover)

end Sys2Proof.Machine
end

section
/-! PROOFS. What a reset and power-on leave of DMEM (70_reset_and_hazards.md R341, R342). -/

namespace Sys2Proof.Machine

/-! ### The window of a pending PACK or UNPACK -/

/-- The words of PACK and UNPACK are 4 and 5 (30_encoding.md R104). -/
theorem packingPending_iff (s : State) :
    s.packingPending = true ↔ s.status.busy = true ∧ (s.pending = 4 ∨ s.pending = 5) := by
  unfold State.packingPending
  rw [Bool.and_eq_true]
  refine and_congr_right fun _ => ⟨fun h => ?_, ?_⟩
  · split at h
    next hd => exact .inl (eq_encode_of_decode hd)
    next hd => exact .inr (eq_encode_of_decode hd)
    · cases h
    · cases h
  · rintro (h | h) <;> rw [h] <;> rfl

/-- The window is the destination range cut at the end of DMEM (log 7). -/
theorem mem_dstWindow_iff (s : State) (x : Nat) :
    (s.dstAddr.toNat ≤ x ∧ x < s.dstAddr.toNat + s.dstWindow) ↔
      s.dstAddr.toNat ≤ x ∧ x < s.dstAddr.toNat + s.dstCap.toNat ∧ x < 2 ^ s.aw := by
  unfold State.dstWindow
  omega

/-- A byte after a reset: the draw of its place in the window of a pending PACK or UNPACK, the old byte elsewhere. -/
theorem memRead_resetBlock (s : State) (x : Nat) :
    s.resetBlock.memRead x =
      if s.packingPending = true ∧ s.dstAddr.toNat ≤ x ∧ x < s.dstAddr.toNat + s.dstWindow then
        Config.freeByte (s.draws + (x - s.dstAddr.toNat))
      else s.memRead x := by
  cases hp : s.packingPending with
  | false =>
    have hdmem : s.resetBlock.dmem = s.dmem := if_neg (Bool.eq_false_iff.mp hp)
    rw [if_neg (fun h => Bool.false_ne_true h.1)]
    exact memRead_congr hdmem rfl x
  | true =>
    have hdmem : s.resetBlock.dmem = s.dmem.drawWindow s.dstAddr.toNat s.draws s.dstWindow := if_pos hp
    unfold State.memRead
    rw [hdmem, Memory.find_drawWindow]
    simp only [true_and]
    split_ifs <;> rfl

/-- Settles O22: the bytes drawn are those of the pending command's window, and using up the turn changes none of its
bounds. -/
theorem resetDrawsOnlyThePendingWindow : Obligations.ResetDrawsOnlyThePendingWindow := by
  intro s hturn
  refine ⟨_, step_of_reset hturn, fun x => ?_⟩
  have hread := memRead_resetBlock (s.setTurns (nextTurn s).2) x
  simp only [packingPending_iff, mem_dstWindow_iff, and_assoc] at hread
  exact ⟨fun hin => hread.trans (if_pos hin), fun hout => hread.trans (if_neg hout)⟩

/-! ### Power-on -/

/-- Power-on gives every register its value after a reset (70_reset_and_hazards.md R342). -/
theorem regValue_powerOn (s : State) (r : RegName) : s.powerOn.regValue r = s.resetBlock.regValue r := by
  cases r <;> rfl

/-- Settles O23: power-on lists no byte of DMEM, so each reads as the free byte of its number. -/
theorem powerOnForgetsDmem : Obligations.PowerOnForgetsDmem := by
  refine fun s hturn => ⟨_, step_of_powerOn hturn, fun _ => rfl, fun r hid hparam => ?_, rfl, rfl, rfl⟩
  rw [regValue_powerOn]
  exact regValue_resetBlock _ hid hparam

end Sys2Proof.Machine
end
